-- ==== Sys2Proof/Word.lean ====
section
/-! DEFINITION. The A416's words: bytes, flash addresses, zone sets, and the numbers of slots, zones and engines. -/

namespace Sys2Proof

/-- A register, parameter or flash byte. -/
abbrev Byte := BitVec 8

/-- A 24-bit flash address. -/
abbrev FlashAddr := BitVec 24

/-- An address of the register window, 00h to 3Fh (R170). -/
abbrev RegAddr := BitVec 6

/-- A set of zones: bit z is zone Zz (11.3, zone mask). -/
abbrev ZoneSet := BitVec 4

/-- The handle of an announcement (R3). -/
abbrev Handle := BitVec 8

/-- A slot of the Announcement Table, 0 to 15. -/
abbrev SlotId := Fin 16

/-- A zone, Z0 to Z3, and its output stage ZO0 to ZO3. -/
abbrev Zone := Fin 4

/-- A stream engine, E0 to E3. -/
abbrev EngineId := Fin 4

/-- The slots in order of their numbers. -/
def allSlots : List SlotId := [0, 1, 2, 3, 4, 5, 6, 7, 8, 9, 10, 11, 12, 13, 14, 15]

/-- The zones in order of their numbers. -/
def allZones : List Zone := [0, 1, 2, 3]

/-- The engines in order of their numbers. -/
def allEngines : List EngineId := [0, 1, 2, 3]

end Sys2Proof
end

