-- ==== Sys2Proof/Syntax.lean ====
section
/-! DEFINITION. The commands of the A416: one constructor for each row of spec/opcode_table.json. -/

namespace Sys2Proof

/-- The two kind-mask registers (R161). -/
inductive MaskReg where
  /-- EVMSK0: STARTED, MARK, SEGMENT_FAULT, PREEMPTED, FINISHED. -/
  | evmsk0
  /-- EVMSK1: ZONE, DIRECTORY, CLAIM. -/
  | evmsk1
  deriving DecidableEq, Repr

/-- One step of the part. A host command is the CMD write that latches it: its parameters stand in P0 to P7 (R176).
An event of the part's own carries the slot, zone or engine it happens to. The data of a burst and of a pass-through
byte come from FMISO and are operands. -/
inductive Instr where
  /-- ANN_OPEN (R17). -/
  | annOpen
  /-- ANN_APPEND (R19). -/
  | annAppend
  /-- ANN_SUBMIT (R22). -/
  | annSubmit
  /-- ANN_CANCEL (R24). -/
  | annCancel
  /-- ANN_STATUS (R27). -/
  | annStatus
  /-- ZONE_SET (R136). -/
  | zoneSet
  /-- DIR_LOAD (R106). -/
  | dirLoad
  /-- FLASH_CONFIG (R143). -/
  | flashConfig
  /-- FLASH_CLAIM (R148). -/
  | flashClaim
  /-- FLASH_RELEASE (R154). -/
  | flashRelease
  /-- SOFT_RESET (R180). -/
  | softReset
  /-- BAD_COMMAND (R179): a CMD write of a code that names no command. -/
  | badCommand (code : Byte)
  /-- CMD_WRITE_DISCARDED (R177). -/
  | cmdWriteDiscarded (code : Byte)
  /-- REGISTER_WRITE (R172). -/
  | registerWrite (addr : RegAddr) (value : Byte)
  /-- EVPOP (R166). -/
  | evpop (value : Byte)
  /-- EVMSK_WRITE (R161). -/
  | evmskWrite (reg : MaskReg) (value : Byte)
  /-- IRQC_WRITE (R167). -/
  | irqcWrite (value : Byte)
  /-- PTCTL_WRITE (R150). -/
  | ptctlWrite (value : Byte)
  /-- PTDAT_WRITE (R151). -/
  | ptdatWrite (value : Byte)
  /-- PT_BYTE_END (R151), with the eight bits taken in on FMISO. -/
  | ptByteEnd (received : Byte)
  /-- POWER_ON_RESET (R168). -/
  | powerOnReset
  /-- PIN_RESET (R168). -/
  | pinReset
  /-- FRAME (R1). -/
  | frame
  /-- TICK (R1). -/
  | tick
  /-- VOLUME_SLEW_STEP (R128). -/
  | volumeSlewStep
  /-- DEADLINE_EXPIRY (R44). -/
  | deadlineExpiry (slot : SlotId)
  /-- IDLE_TIMER_EXPIRY (R125). -/
  | idleTimerExpiry (zone : Zone)
  /-- HOLD_EXPIRY (R153). -/
  | holdExpiry
  /-- SCHEDULING_PASS (R35). -/
  | schedulingPass
  /-- START (R42). -/
  | start (slot : SlotId)
  /-- ENGINE_FADE_DONE (R81). -/
  | engineFadeDone (engine : EngineId)
  /-- FADE_END (R47). -/
  | fadeEnd (engine : EngineId)
  /-- COMPLETION (R50). -/
  | completion (engine : EngineId)
  /-- ZONE_FADE_END (R133). -/
  | zoneFadeEnd (zone : Zone)
  /-- BIAS_READY (R123). -/
  | biasReady (zone : Zone)
  /-- BIAS_OFF (R123). -/
  | biasOff (zone : Zone)
  /-- GAP_END (R71). -/
  | gapEnd (engine : EngineId)
  /-- REPEAT_GAP_END (R76). -/
  | repeatGapEnd (engine : EngineId)
  /-- PORT_GRANT (R145). -/
  | portGrant
  /-- ENGINE_BURST_ARRIVAL (R66), with the burst's data bytes. -/
  | engineBurstArrival (data : List Byte)
  /-- LOADER_BURST_ARRIVAL (R108), with the burst's data bytes. -/
  | loaderBurstArrival (data : List Byte)
  /-- RESETN_HELD_LOW (R174). -/
  | resetnHeldLow
  /-- HCS_FALL (R170). -/
  | hcsFall
  /-- ADDRESS_BYTE (R170). -/
  | addressByte (byte : Byte)
  /-- HCS_RISE (R174). -/
  | hcsRise
  deriving DecidableEq, Repr

end Sys2Proof
end

