-- ==== Sys2Proof/Config.lean ====
section
/-! DEFINITION. What the spec leaves open: the one free value of the model. -/

namespace Sys2Proof

/-- FREE VALUE (log 8). R164: events of different blocks that fall together may be offered to the event queue in
either order. The n-th such choice takes the block numbered `offerChoice n` (modulo the number of blocks that still
have a record to offer). It has no body: nothing can be proved of its values. -/
opaque Config.offerChoice : Nat → Nat

end Sys2Proof
end

