-- ==== Sys2Proof/Machine/State.lean ====
section
/-! DEFINITION. The state of the A416: every register, record, queue, counter, flag and pin the spec gives it, and the
queue of waiting commands. Plain data throughout. State.reset is the part right after a power-on reset. -/

namespace Sys2Proof.Machine

/-! ### Chapter 1: announcements -/

/-- The states of a slot (R5). -/
inductive AnnState where
  | free | building | queued | granted | playing | stopping
  deriving DecidableEq, Repr

/-- What becomes of a preempted announcement (R2, R48). -/
inductive Policy where
  | discard | restart | resume
  deriving DecidableEq, Repr

/-- Why an announcement is STOPPING (R6). -/
inductive StopReason where
  | cancelled | preempted | aborted
  deriving DecidableEq, Repr

/-- The outcome a FINISHED event carries (R28). -/
inductive AnnOutcome where
  | completed | cancelled | preempted | expired | aborted | zoneLost
  deriving DecidableEq, Repr

/-- A segment record (R10). The `fault` of a CLIP is its fault mark (R12). -/
inductive Segment where
  | clip (number : Nat) (trim : Option Nat) (fault : Bool)
  | gap (ms : Nat)
  | mark (value : Byte)
  deriving DecidableEq, Repr

/-- A segment index and a pass: the play position and the resume point (R7). -/
structure Position where
  seg : Nat
  pass : Nat
  deriving DecidableEq, Repr

/-- The three fields an announcement has while STOPPING (R6). -/
structure Stopping where
  reason : StopReason
  cancelPending : Bool
  preemptor : Option Handle
  deriving DecidableEq, Repr

/-- A slot of the Announcement Table with its announcement record (R2), and the scheduler's mark that a start of the
announcement is due (R41). -/
structure Slot where
  state : AnnState
  generation : BitVec 4
  priority : Nat
  zoneMask : ZoneSet
  /-- The effective zones; the empty set while they are absent. -/
  effZones : ZoneSet
  policy : Policy
  repeatCount : Nat
  /-- In units of 10 ms. -/
  repeatGap : Nat
  /-- In units of 100 ms; 0 means none. -/
  deadlineSetting : Nat
  /-- Armed, with the ticks remaining; 0 remaining is an expiry that has fallen due (R44). -/
  deadline : Option Nat
  tag : Byte
  segments : List Segment
  playPos : Position
  resume : Option Position
  faultCount : Nat
  underruns : Nat
  /-- Present while STOPPING. -/
  stop : Option Stopping
  engine : Option EngineId
  startDue : Bool
  deriving DecidableEq, Repr

/-- A FREE slot keeps its generation, and its other fields have no meaning (R5): the model holds them at the values
here (log 6). -/
def Slot.free (generation : BitVec 4) : Slot :=
  { state := .free, generation := generation, priority := 0, zoneMask := 0#4, effZones := 0#4, policy := .discard
    repeatCount := 0, repeatGap := 0, deadlineSetting := 0, deadline := none, tag := 0#8, segments := []
    playPos := ⟨0, 1⟩, resume := none, faultCount := 0, underruns := 0, stop := none, engine := none
    startDue := false }

/-! ### Chapter 2: zone records -/

/-- The scheduler's record of a zone (R32). -/
structure ZoneRec where
  owner : Option Handle
  claimant : Option Handle
  deriving DecidableEq, Repr

/-! ### Chapter 6: zone output stages -/

/-- The bias machine of a stage (R122). -/
inductive Bias where
  | off | rampUp | ready | rampDown
  deriving DecidableEq, Repr

/-- Why a zone fade runs (R121). -/
inductive FadeCause where
  | disable | softReset
  deriving DecidableEq, Repr

/-- A zone fade (R132). -/
structure ZoneFade where
  position : Nat
  held : Int
  cause : FadeCause
  deriving DecidableEq, Repr

/-- A zone output stage (R121). -/
structure Stage where
  enabled : Bool
  volumeTarget : Nat
  volumeCurrent : Nat
  /-- In units of 10 ms; 255 means the zone never ramps down. -/
  idleHold : Nat
  bias : Bias
  level : Nat
  /-- Stopped, or running with the ticks remaining; 0 remaining is an expiry that has fallen due (R125). -/
  idleTimer : Option Nat
  fade : Option ZoneFade
  lastSample : Int
  dac : Nat
  deriving DecidableEq, Repr

/-! ### Chapters 3 and 4: stream engines -/

/-- The states of an engine (R56). -/
inductive EngineState where
  | idle | priming | running | stalled | fading
  deriving DecidableEq, Repr

/-- What a burst request asks for (R55). -/
inductive BurstKind where
  | header | data
  deriving DecidableEq, Repr

/-- An engine's outstanding burst request (R55). Its token is the engine's number with `epoch`. -/
structure BurstRequest where
  kind : BurstKind
  addr : FlashAddr
  count : Nat
  epoch : BitVec 8
  granted : Bool
  dropped : Bool
  deriving DecidableEq, Repr

/-- The phase of the fetch cursor (R55). -/
inductive FetchPhase where
  | header | data | waiting | done
  deriving DecidableEq, Repr

/-- Which pass the fetch cursor is in, as the play cursor sees it (R55). -/
inductive Lap where
  | same | next
  deriving DecidableEq, Repr

/-- The fetch cursor with its lap (R55). While WAITING it stands before segment `seg`; when DONE it stands past the
last segment. -/
structure FetchCursor where
  pass : Nat
  seg : Nat
  offset : Nat
  phase : FetchPhase
  lap : Lap
  deriving DecidableEq, Repr

/-- The stage of the play cursor (R55). -/
inductive PlayStage where
  | segment | repeatGap | ended | halted
  deriving DecidableEq, Repr

/-- The play cursor (R55). -/
structure PlayCursor where
  pass : Nat
  seg : Nat
  stage : PlayStage
  deriving DecidableEq, Repr

/-- How far the play side has come with the segment or repeat gap under its cursor: not begun; begun; or a gap that
has given its last frame, so that the cursor leaves it at the next frame (R68, R71, R76). -/
inductive Progress where
  | fresh | begun | done
  deriving DecidableEq, Repr

/-- Which half of an SD4 data byte gives the next sample (R85). -/
inductive Nibble where
  | low | high
  deriving DecidableEq, Repr

/-- The decoder state of an engine (R85). -/
structure Decoder where
  predictor : Int
  stepIndex : Nat
  blockPos : Nat
  blockLen : Nat
  nibble : Nibble
  current : Int
  previous : Int
  phase : Nat
  deriving DecidableEq, Repr

/-- The cleared decoder state, the "At bind" column of R85. -/
def Decoder.cleared : Decoder :=
  { predictor := 0, stepIndex := 0, blockPos := 0, blockLen := 0, nibble := .low, current := 0, previous := 0
    phase := 0 }

/-- A stream engine (R55). The fill is the length of the ring. -/
structure Engine where
  state : EngineState
  binding : Option Handle
  epoch : BitVec 8
  ring : List Byte
  reserved : Nat
  request : Option BurstRequest
  fetch : FetchCursor
  play : PlayCursor
  progress : Progress
  clipPos : Nat
  framesRemaining : Nat
  dec : Decoder
  fadePos : Nat
  underrun : Bool
  /-- The engine entered FADING from PRIMING and the exit test of R69 has not held yet (R80). -/
  fadePriming : Bool
  /-- A completion has been reported and not yet taken (R77). -/
  completionDue : Bool
  /-- A fade end has been reported and not yet taken (R81). -/
  fadeEndDue : Bool
  deriving DecidableEq, Repr

/-- An unbound engine (R58, R83, R84). Its fields other than state and epoch have no meaning (R55): the model holds
them at the values here (log 6). -/
def Engine.idle (epoch : BitVec 8) : Engine :=
  { state := .idle, binding := none, epoch := epoch, ring := [], reserved := 0, request := none
    fetch := { pass := 1, seg := 0, offset := 0, phase := .waiting, lap := .same }
    play := { pass := 1, seg := 0, stage := .segment }
    progress := .fresh, clipPos := 0, framesRemaining := 0, dec := Decoder.cleared, fadePos := 0, underrun := false
    fadePriming := false, completionDue := false, fadeEndDue := false }

/-! ### Chapter 5: clip directory and loader -/

/-- The states of the directory (R102). -/
inductive DirState where
  | empty | loading | valid | failed | stale
  deriving DecidableEq, Repr

/-- An entry record of the directory (R101, R104). -/
structure ClipEntry where
  start : FlashAddr
  length : Nat
  coding : Byte
  rate : Byte
  trim : Byte
  valid : Bool
  deriving DecidableEq, Repr

/-- The phase of a load (R108). -/
inductive LoadPhase where
  | header | entries
  deriving DecidableEq, Repr

/-- The loader's outstanding burst request (R108). -/
structure LoaderRequest where
  number : BitVec 8
  addr : FlashAddr
  count : Nat
  granted : Bool
  deriving DecidableEq, Repr

/-- The loader's progress record (R108). -/
structure LoadProgress where
  phase : LoadPhase
  nextIndex : Nat
  count : Nat
  checksum : BitVec 16
  sum : BitVec 16
  request : Option LoaderRequest
  deriving DecidableEq, Repr

/-- The directory record (R101). The entry count is the length of `entries`. -/
structure Directory where
  state : DirState
  base : FlashAddr
  entries : List ClipEntry
  invalid : Nat
  loadNumber : BitVec 8
  progress : Option LoadProgress
  deriving DecidableEq, Repr

/-! ### Chapter 7: serial memory port -/

/-- What the port is doing (R140). -/
inductive PortState where
  | idle | engineBurst | directoryBurst | hostHeld
  deriving DecidableEq, Repr

/-- The FSCK rate: MCLK/2 or MCLK (R140). -/
inductive FlashClock where
  | half | full
  deriving DecidableEq, Repr

/-- Who a burst belongs to: an engine with its token, or the loader with its load number (R140). -/
inductive Requester where
  | engine (e : EngineId) (epoch : BitVec 8)
  | loader (number : BitVec 8)
  deriving DecidableEq, Repr

/-- The burst in progress (R140), with the settings in force at its start (R141, R143). -/
structure Burst where
  requester : Requester
  addr : FlashAddr
  count : Nat
  received : List Byte
  clock : FlashClock
  opcode : Byte
  dummy : Nat
  deriving DecidableEq, Repr

/-- The mode of a host claim (R148). -/
inductive ClaimMode where
  | shared | exclusive
  deriving DecidableEq, Repr

/-- Why a HELD claim is to end when the byte in progress has finished (R148). -/
inductive EndPending where
  | release | revoke | reset
  deriving DecidableEq, Repr

/-- The host's claim (R148). The remaining hold is there for mode SHARED alone. -/
inductive Claim where
  | none
  | waiting (mode : ClaimMode)
  | held (mode : ClaimMode) (hold : Option Nat) (ending : Option EndPending)
  deriving DecidableEq, Repr

/-- A pass-through byte in progress: what is sent, and at which clock (R151, R143). -/
structure PassByte where
  sent : Byte
  clock : FlashClock
  deriving DecidableEq, Repr

/-- The serial memory port (R140). Byte busy is the presence of `ptByte`. -/
structure Port where
  state : PortState
  burst : Option Burst
  /-- A burst that has ended, whose data its requester has not taken yet: the next grant was taken first (R142,
  log 26). -/
  arriving : Option Burst
  clock : FlashClock
  opcode : Byte
  dummy : Nat
  /-- In ms. -/
  holdLimit : Nat
  claim : Claim
  fcs : Bool
  ptByte : Option PassByte
  received : Byte
  revoked : Bool
  ptOverrun : Bool
  notOwner : Bool
  pointer : EngineId
  deriving DecidableEq, Repr

/-! ### Chapter 8: event queue -/

/-- The kinds of event (R159). -/
inductive EventKind where
  | resetDone | started | mark | segmentFault | preempted | finished | zone | directory | claim | overflow
  deriving DecidableEq, Repr

/-- A record of the event queue (R159). -/
structure EventRecord where
  kind : EventKind
  handle : Byte
  tag : Byte
  d0 : Byte
  d1 : Byte
  d2 : Byte
  deriving DecidableEq, Repr

/-- The event queue, oldest record first, its kind mask and the IRQ enable (R161, R164, R167). -/
structure EventQueue where
  records : List EventRecord
  /-- EVMSK0: bit 0 STARTED, 1 MARK, 2 SEGMENT_FAULT, 3 PREEMPTED, 4 FINISHED. -/
  mask0 : BitVec 5
  /-- EVMSK1: bit 0 ZONE, 1 DIRECTORY, 2 CLAIM. -/
  mask1 : BitVec 3
  irqEnable : Bool
  deriving DecidableEq, Repr

/-! ### Chapter 9: host port and mailbox -/

/-- The result codes of 11.3. -/
inductive ResultCode where
  | ok | busy | badCommand | badParam | badHandle | staleHandle | badState | noSlot | poolExhausted | tooLong
  | noSound | badClip | dirInvalid
  deriving DecidableEq, Repr

/-- The result bytes Q0 to Q3 (R175). -/
structure ResultBytes where
  q0 : Byte
  q1 : Byte
  q2 : Byte
  q3 : Byte
  deriving DecidableEq, Repr

/-- The command mailbox (R175). -/
structure Mailbox where
  executing : Bool
  p : Vector Byte 8
  latched : Vector Byte 8
  code : Byte
  result : ResultCode
  q : ResultBytes
  overrun : Bool
  /-- Present only after a command that ended in the step that latched it: 2 less the frames that have passed since, and
  0 when a frame's time has passed for certain. While it is not 0, a CMD write that fell between the latch and the end may
  still be taken as discarded (R176, R177, log 4). -/
  foldedEnd : Nat
  deriving DecidableEq, Repr

/-- The address byte of a frame and the frame's current address (R170). -/
structure FrameAddress where
  read : Bool
  autoInc : Bool
  addr : RegAddr
  deriving DecidableEq, Repr

/-- A host frame the port has taken: the bits counted since the fall of HCS (whole bytes, log 18), and the address
byte once it has been taken (R170). -/
structure HostFrame where
  bits : Nat
  address : Option FrameAddress
  deriving DecidableEq, Repr

/-- The host port: the level of HCS, the frame being taken, and the byte driven on HSDO (none: it floats) (R170). -/
structure HostPort where
  hcsLow : Bool
  frame : Option HostFrame
  hsdo : Option Byte
  deriving DecidableEq, Repr

/-! ### The frame clock -/

/-- The frame clock (R1), and the ticks and slew steps that have fallen and have not been taken yet (log 10). -/
structure FrameClock where
  tick : Nat
  slew : Nat
  ticksDue : Nat
  slewsDue : Nat
  deriving DecidableEq, Repr

/-! ### The whole part -/

/-- The state of the A416. -/
structure State where
  /-- The commands that are waiting, first in, first out. -/
  pending : List Instr
  clock : FrameClock
  slots : Vector Slot 16
  /-- The free count of the Segment Pool (R13). -/
  poolFree : Nat
  /-- The submission order list, earliest first (R15). -/
  order : List SlotId
  zones : Vector ZoneRec 4
  /-- A scheduling pass has been requested and not yet taken (R34). -/
  passPending : Bool
  stages : Vector Stage 4
  engines : Vector Engine 4
  dir : Directory
  port : Port
  events : EventQueue
  mailbox : Mailbox
  host : HostPort
  /-- The pin RESETn is low. -/
  resetnLow : Bool
  /-- How many of the choices R164 leaves open have been made (log 8). -/
  choices : Nat
  deriving DecidableEq, Repr

/-- Why the part would stop. Nothing in the spec stops it: every command has an effect, a refusal by result code, or
is discarded (log 1). So there is no constructor: no command ends in a fault. -/
inductive Fault where
  deriving DecidableEq, Repr

/-- Why a command has no meaning in this model. -/
inductive Refusal where
  /-- Raised by the dispatch alone, for a row that has no meaning yet; safe. No arm raises it. -/
  | notModelled (mnemonic : String)
  deriving DecidableEq, Repr

/-- The stage after a POR or pin reset (R138). -/
def Stage.reset : Stage :=
  { enabled := true, volumeTarget := 96, volumeCurrent := 96, idleHold := 50, bias := .off, level := 0
    idleTimer := none, fade := none, lastSample := 0, dac := 0 }

/-- The directory after a POR or pin reset (R119). -/
def Directory.reset : Directory :=
  { state := .empty, base := 0#24, entries := [], invalid := 0, loadNumber := 0#8, progress := none }

/-- The port after a POR or pin reset (R157). -/
def Port.reset : Port :=
  { state := .idle, burst := none, arriving := none, clock := .half, opcode := 0x03#8, dummy := 0, holdLimit := 4, claim := .none
    fcs := false, ptByte := none, received := 0#8, revoked := false, ptOverrun := false, notOwner := false
    pointer := 3 }

/-- The mailbox after a POR or pin reset (R182); the latched parameters are the model's choice (log 5). -/
def Mailbox.reset : Mailbox :=
  { executing := false, p := Vector.replicate 8 0#8, latched := Vector.replicate 8 0#8, code := 0#8, result := .ok
    q := ⟨0#8, 0#8, 0#8, 0#8⟩, overrun := false, foldedEnd := 0 }

/-- The RESET_DONE record of a reset kind: 1 POR, 2 PIN, 3 SOFT (11.4). -/
def EventRecord.resetDone (resetKind : Byte) : EventRecord :=
  { kind := .resetDone, handle := 0#8, tag := 0#8, d0 := resetKind, d1 := 0#8, d2 := 0#8 }

/-- The event queue after a POR or pin reset (R168). -/
def EventQueue.reset (resetKind : Byte) : EventQueue :=
  { records := [EventRecord.resetDone resetKind], mask0 := 0x1F#5, mask1 := 0x7#3, irqEnable := false }

/-- The part right after a power-on reset, with HCS and RESETn high (log 23) and no command waiting. -/
def State.reset : State :=
  { pending := [], clock := { tick := 0, slew := 0, ticksDue := 0, slewsDue := 0 }
    slots := Vector.replicate 16 (Slot.free 0#4), poolFree := 256, order := []
    zones := Vector.replicate 4 { owner := none, claimant := none }, passPending := false
    stages := Vector.replicate 4 Stage.reset, engines := Vector.replicate 4 (Engine.idle 0#8)
    dir := Directory.reset, port := Port.reset, events := EventQueue.reset 1#8, mailbox := Mailbox.reset
    host := { hcsLow := false, frame := none, hsdo := none }, resetnLow := false, choices := 0 }

end Sys2Proof.Machine
end

