-- ==== Sys2Proof/Machine/Operands.lean ====
section
/-! DEFINITION. Operand forms and codes: handles, the parameter bytes of the commands, result and event codes
(11.2 to 11.4), and the two's-complement and little-endian readings the formats need. -/

namespace Sys2Proof.Machine

/-! ### Numbers -/

/-- A byte holding a number (its value modulo 256). -/
def byteOf (n : Nat) : Byte := BitVec.ofNat 8 n

/-- A Bool as a register bit. -/
def bitOf (b : Bool) : Nat := if b then 1 else 0

/-- A count that rises by 1 and saturates at 255 (R7, R9, R163). -/
def satSucc255 (n : Nat) : Nat := if n < 255 then n + 1 else 255

/-- A value held to a range (R94, R99, R129). -/
def clampInt (lo hi x : Int) : Int := if x < lo then lo else if hi < x then hi else x

/-- A value held to the range of a sample, -32768 to 32767. -/
def clampSample (x : Int) : Int := clampInt (-32768) 32767 x

/-- A little-endian number of bytes. -/
def littleEndian : List Byte → Nat
  | [] => 0
  | b :: rest => b.toNat + 256 * littleEndian rest

/-- Two bytes as a signed 16-bit value, less significant byte first (R88, R91). -/
def signed16 (lo hi : Byte) : Int := (BitVec.ofNat 16 (lo.toNat + 256 * hi.toNat)).toInt

/-- The byte at an offset of a run of bytes; 0 past its end. -/
def byteAt (data : List Byte) (i : Nat) : Byte := data.getD i 0#8

/-! ### Zone sets -/

/-- Zone z is in the set. -/
def inZones (zs : ZoneSet) (z : Zone) : Bool := zs.getLsbD z.val

/-- The set of one zone. -/
def zoneBit (z : Zone) : ZoneSet := 1#4 <<< z.val

/-! ### Handles (R3) -/

/-- 16 × generation + slot. -/
def handleOf (generation : BitVec 4) (i : SlotId) : Handle := BitVec.ofNat 8 (16 * generation.toNat + i.val)

/-- The slot a handle names: its low four bits. -/
def handleSlot (h : Handle) : SlotId := ⟨h.toNat % 16, Nat.mod_lt _ (by decide)⟩

/-- The generation a handle carries: its high four bits. -/
def handleGeneration (h : Handle) : BitVec 4 := BitVec.ofNat 4 (h.toNat / 16)

/-! ### Parameter and result codes (11.3) -/

/-- The eight latched parameter bytes of a command (R175). -/
abbrev Params := Vector Byte 8

/-- Policy codes: 0 DISCARD, 1 RESTART, 2 RESUME. -/
def policyOfCode (b : Byte) : Option Policy :=
  if b = 0#8 then some .discard else if b = 1#8 then some .restart else if b = 2#8 then some .resume else none

/-- Claim modes: 0 SHARED, 1 EXCLUSIVE. -/
def claimModeOfCode (b : Byte) : Option ClaimMode :=
  if b = 0#8 then some .shared else if b = 1#8 then some .exclusive else none

/-- Flash clocks: 0 MCLK/2, 1 MCLK. -/
def flashClockOfCode (b : Byte) : Option FlashClock :=
  if b = 0#8 then some .half else if b = 1#8 then some .full else none

/-- The segment that ANN_APPEND's parameters P1 to P4 describe, or none where the kind or a parameter of it is out
of range (R20, R184). -/
def segmentOfParams (p : Params) : Option Segment :=
  let two := p[2].toNat + 256 * p[3].toNat
  if p[1] = 1#8 then
    if 511 < two then none
    else if p[4].toNat ≤ 31 then some (.clip two (some p[4].toNat) false)
    else if p[4] = 0xFF#8 then some (.clip two none false)
    else none
  else if p[1] = 2#8 then if two = 0 ∨ 4095 < two then none else some (.gap two)
  else if p[1] = 3#8 then some (.mark p[2])
  else none

/-- The base of DIR_LOAD: P0 to P2 as one 24-bit value (11.3). -/
def baseOfParams (p : Params) : FlashAddr :=
  BitVec.ofNat 24 (p[0].toNat + 256 * p[1].toNat + 65536 * p[2].toNat)

/-- Announcement state codes. -/
def annStateCode : AnnState → Byte
  | .free => 0#8
  | .building => 1#8
  | .queued => 2#8
  | .granted => 3#8
  | .playing => 4#8
  | .stopping => 5#8

/-- Bias state codes. -/
def biasCode : Bias → Byte
  | .off => 0#8
  | .rampUp => 1#8
  | .ready => 2#8
  | .rampDown => 3#8

/-- Claim mode codes. -/
def claimModeCode : ClaimMode → Byte
  | .shared => 0#8
  | .exclusive => 1#8

/-- Result codes, as CRES reads them. -/
def resultCode : ResultCode → Byte
  | .ok => 0x00#8
  | .busy => 0x01#8
  | .badCommand => 0x02#8
  | .badParam => 0x03#8
  | .badHandle => 0x04#8
  | .staleHandle => 0x05#8
  | .badState => 0x06#8
  | .noSlot => 0x07#8
  | .poolExhausted => 0x08#8
  | .tooLong => 0x09#8
  | .noSound => 0x0A#8
  | .badClip => 0x0B#8
  | .dirInvalid => 0x0C#8

/-- The result code and result bytes an owning block hands back (R176). -/
structure Reply where
  result : ResultCode
  q : ResultBytes
  deriving DecidableEq, Repr

/-- Result bytes that a result does not name read 00h (R16, R176). -/
def ResultBytes.zero : ResultBytes := ⟨0#8, 0#8, 0#8, 0#8⟩

/-- A result that names no result byte. -/
def Reply.plain (r : ResultCode) : Reply := ⟨r, ResultBytes.zero⟩

/-! ### Event codes and records (11.4) -/

/-- Event kind codes, as EV0 reads them. -/
def eventKindCode : EventKind → Byte
  | .resetDone => 0x01#8
  | .started => 0x02#8
  | .mark => 0x03#8
  | .segmentFault => 0x04#8
  | .preempted => 0x05#8
  | .finished => 0x06#8
  | .zone => 0x07#8
  | .directory => 0x08#8
  | .claim => 0x09#8
  | .overflow => 0x0A#8

/-- FINISHED outcome codes. -/
def outcomeCode : AnnOutcome → Byte
  | .completed => 1#8
  | .cancelled => 2#8
  | .preempted => 3#8
  | .expired => 4#8
  | .aborted => 5#8
  | .zoneLost => 6#8

/-- The two kinds of segment fault (R75). -/
inductive FaultKind where
  | headerMismatch | format
  deriving DecidableEq, Repr

/-- SEGMENT_FAULT fault kind codes. -/
def faultKindCode : FaultKind → Byte
  | .headerMismatch => 1#8
  | .format => 2#8

/-- What becomes of a requeued announcement (R48). -/
inductive RequeueAction where
  | restart | resume
  deriving DecidableEq, Repr

/-- PREEMPTED action codes. -/
def requeueActionCode : RequeueAction → Byte
  | .restart => 1#8
  | .resume => 2#8

/-- The result of a load (R114). -/
inductive LoadResult where
  | valid | badIdent | badVersion | badCount | badChecksum
  deriving DecidableEq, Repr

/-- DIRECTORY result codes. -/
def loadResultCode : LoadResult → Nat
  | .valid => 0
  | .badIdent => 1
  | .badVersion => 2
  | .badCount => 3
  | .badChecksum => 4

/-- STARTED: effective zones, segment and pass of the starting point (R42). -/
def EventRecord.started (h : Handle) (tag : Byte) (zones : ZoneSet) (at_ : Position) : EventRecord :=
  { kind := .started, handle := h, tag := tag, d0 := zones.setWidth 8, d1 := byteOf at_.seg, d2 := byteOf at_.pass }

/-- MARK: value, segment index, pass (R72). -/
def EventRecord.mark (h : Handle) (tag value : Byte) (seg pass : Nat) : EventRecord :=
  { kind := .mark, handle := h, tag := tag, d0 := value, d1 := byteOf seg, d2 := byteOf pass }

/-- SEGMENT_FAULT: segment index, fault kind, pass (R75). -/
def EventRecord.segmentFault (h : Handle) (tag : Byte) (seg : Nat) (kind : FaultKind) (pass : Nat) : EventRecord :=
  { kind := .segmentFault, handle := h, tag := tag, d0 := byteOf seg, d1 := faultKindCode kind, d2 := byteOf pass }

/-- PREEMPTED: action, preemptor handle or FFh, segment index of the next start (R49). -/
def EventRecord.preempted (h : Handle) (tag : Byte) (action : RequeueAction) (preemptor : Byte) (seg : Nat) :
    EventRecord :=
  { kind := .preempted, handle := h, tag := tag, d0 := requeueActionCode action, d1 := preemptor, d2 := byteOf seg }

/-- FINISHED: outcome, underrun episodes, fault count (R29). -/
def EventRecord.finished (h : Handle) (tag : Byte) (outcome : AnnOutcome) (underruns faults : Nat) : EventRecord :=
  { kind := .finished, handle := h, tag := tag, d0 := outcomeCode outcome, d1 := byteOf underruns
    d2 := byteOf faults }

/-- ZONE: zone number, new bias state (R137). -/
def EventRecord.zone (z : Zone) (bias : Bias) : EventRecord :=
  { kind := .zone, handle := 0#8, tag := 0#8, d0 := byteOf z.val, d1 := biasCode bias, d2 := 0#8 }

/-- DIRECTORY: the result byte with the upper bits of both counts, and their low bytes (R114, 11.4). -/
def EventRecord.directory (result : LoadResult) (count invalid : Nat) : EventRecord :=
  { kind := .directory, handle := 0#8, tag := 0#8
    d0 := byteOf (loadResultCode result + 16 * (count / 256 % 4) + 64 * (invalid / 256 % 4))
    d1 := byteOf count, d2 := byteOf invalid }

/-- CLAIM (HELD) of a mode (R149). -/
def EventRecord.claimHeld (mode : ClaimMode) : EventRecord :=
  { kind := .claim, handle := 0#8, tag := 0#8, d0 := 1#8, d1 := claimModeCode mode, d2 := 0#8 }

/-- CLAIM (REVOKED, SHARED) (R153). -/
def EventRecord.claimRevoked : EventRecord :=
  { kind := .claim, handle := 0#8, tag := 0#8, d0 := 2#8, d1 := claimModeCode .shared, d2 := 0#8 }

/-- OVERFLOW with a dropped count of 1 (R162). -/
def EventRecord.overflow : EventRecord :=
  { kind := .overflow, handle := 0#8, tag := 0#8, d0 := 1#8, d1 := 0#8, d2 := 0#8 }

end Sys2Proof.Machine
end

