-- ==== Sys2Proof/Machine/Flags.lean ====
section
/-! DEFINITION. The status views: STAT, ZST0 to ZST3, PTSTA, PTCTL, IRQn, FREESLOT, FREESEG and the whole register
window as the host reads it (R171, R181, 11.2). Reading changes nothing, so each is a function of the state. -/

namespace Sys2Proof.Machine

/-- The number of FREE slots, as FREESLOT reads it (R5). -/
def State.freeSlots (s : State) : Nat := allSlots.countP fun i => s.slots[i].state == .free

/-- The free count as FREESEG reports it: at most 255 (R13). -/
def State.freeSegReported (s : State) : Byte := byteOf (min s.poolFree 255)

/-- IRQn is asserted while the IRQ enable is set and the queue holds a record; it is released while RESETn is low
(R167, R168). -/
def State.irqnAsserted (s : State) : Bool :=
  s.events.irqEnable && !s.events.records.isEmpty && !s.resetnLow

/-- Directory state codes of STAT. -/
def dirStateCode : DirState → Nat
  | .empty => 0
  | .loading => 1
  | .valid => 2
  | .failed => 3
  | .stale => 4

/-- Claim state codes of STAT. A claim with an end pending reads HELD (R181). -/
def claimStateCode : Claim → Nat
  | .none => 0
  | .waiting _ => 1
  | .held _ _ _ => 2

/-- The host claim is HELD. -/
def Claim.isHeld : Claim → Bool
  | .held _ _ _ => true
  | .none => false
  | .waiting _ => false

/-- STAT (R181): bit 0 busy, 1 overrun, 4 to 2 directory state, 6 and 5 claim state. -/
def State.stat (s : State) : Byte :=
  byteOf (bitOf s.mailbox.executing + 2 * bitOf s.mailbox.overrun + 4 * dirStateCode s.dir.state
    + 32 * claimStateCode s.port.claim)

/-- ZSTz (R122, R181): bits 1 and 0 the bias state, 2 owned, 3 claimed. -/
def State.zst (s : State) (z : Zone) : Byte :=
  byteOf ((biasCode s.stages[z].bias).toNat + 4 * bitOf s.zones[z].owner.isSome
    + 8 * bitOf s.zones[z].claimant.isSome)

/-- FCS is asserted by the host under a HELD claim: the select of PTCTL and the SELECTED of PTSTA (R150, R152). -/
def Port.selected (p : Port) : Bool := p.claim.isHeld && p.fcs

/-- PTSTA (R152): bit 0 BYTE_BUSY, 1 SELECTED, 2 REVOKED, 3 PT_OVERRUN, 4 NOT_OWNER. -/
def Port.ptsta (p : Port) : Byte :=
  byteOf (bitOf p.ptByte.isSome + 2 * bitOf p.selected + 4 * bitOf p.revoked + 8 * bitOf p.ptOverrun
    + 16 * bitOf p.notOwner)

/-- EV0 to EV5: the six fields of the head record, all 00h when the queue is empty (R165). -/
def EventQueue.headField (q : EventQueue) (field : Nat) : Byte :=
  match q.records with
  | [] => 0#8
  | r :: _ =>
    match field with
    | 0 => eventKindCode r.kind
    | 1 => r.handle
    | 2 => r.tag
    | 3 => r.d0
    | 4 => r.d1
    | _ => r.d2

/-- The 64 registers as the host reads them, address 00h first (11.2). A reserved address and EVPOP read 00h. -/
def State.window (s : State) : List Byte :=
  [ 0xA4#8, s.stat, s.mailbox.p[0], s.mailbox.p[1], s.mailbox.p[2], s.mailbox.p[3], s.mailbox.p[4], s.mailbox.p[5]
  , s.mailbox.p[6], s.mailbox.p[7], s.mailbox.code, resultCode s.mailbox.result
  , s.mailbox.q.q0, s.mailbox.q.q1, s.mailbox.q.q2, s.mailbox.q.q3
  -- 10h
  , byteOf s.freeSlots, s.freeSegReported, s.zst 0, s.zst 1, s.zst 2, s.zst 3
  , 0#8, 0#8, 0#8, 0#8, 0#8, 0#8, 0#8, 0#8, 0#8, 0#8
  -- 20h
  , byteOf (bitOf s.events.irqEnable), s.events.mask0.setWidth 8, s.events.mask1.setWidth 8
  , byteOf s.events.records.length, s.events.headField 0, s.events.headField 1, s.events.headField 2
  , s.events.headField 3, s.events.headField 4, s.events.headField 5
  , 0#8, 0#8, 0#8, 0#8, 0#8, 0#8
  -- 30h
  , byteOf (bitOf s.port.selected), s.port.received, s.port.ptsta ]

/-- The register at an address, as the host reads it (R171). Addresses 33h to 3Fh are reserved. -/
def State.readRegister (s : State) (a : RegAddr) : Byte := s.window.getD a.toNat 0#8

/-- The bytes a burst drives on FMOSI, in order: the read opcode, the address most significant byte first, the dummy
byte if the setting is 1, and 00h for each data byte (R141). -/
def Burst.mosi (b : Burst) : List Byte :=
  [b.opcode, byteOf (b.addr.toNat / 65536), byteOf (b.addr.toNat / 256), byteOf b.addr.toNat]
    ++ List.replicate (b.dummy + b.count) 0#8

end Sys2Proof.Machine
end

