-- ==== Sys2Proof/Machine/Ops.lean ====
section
/-! DEFINITION. The named operations that the commands share: updates of one record of the state, offering an event
(R161 to R163), the mailbox's latch and end (R176, R177), a write reaching a register (R172, R173), the zone stages'
answers to the scheduler (R124, R125), claims and owners (R32, R39), the start check (R41), binding and unbinding
(R57, R58), freeing and requeueing (R28, R49), the end of a fade (R47, R48) and the end of a host claim. -/

namespace Sys2Proof.Machine

/-! ### Updates of one record -/

/-- Slot i becomes x. -/
def State.setSlot (s : State) (i : SlotId) (x : Slot) : State := { s with slots := s.slots.set i x }

/-- The zone record of z becomes x. -/
def State.setZone (s : State) (z : Zone) (x : ZoneRec) : State := { s with zones := s.zones.set z x }

/-- The zone stage of z becomes x. -/
def State.setStage (s : State) (z : Zone) (x : Stage) : State := { s with stages := s.stages.set z x }

/-- Engine e becomes x. -/
def State.setEngine (s : State) (e : EngineId) (x : Engine) : State := { s with engines := s.engines.set e x }

/-- The directory becomes x. -/
def State.setDir (s : State) (x : Directory) : State := { s with dir := x }

/-- The port becomes x. -/
def State.setPort (s : State) (x : Port) : State := { s with port := x }

/-- The event queue becomes x. -/
def State.setEvents (s : State) (x : EventQueue) : State := { s with events := x }

/-- The mailbox becomes x. -/
def State.setMailbox (s : State) (x : Mailbox) : State := { s with mailbox := x }

/-- The host port becomes x. -/
def State.setHost (s : State) (x : HostPort) : State := { s with host := x }

/-- The frame clock becomes x. -/
def State.setClock (s : State) (x : FrameClock) : State := { s with clock := x }

/-- A scheduling pass is requested; a request while one is pending adds nothing (R34). -/
def State.requestPass (s : State) : State := { s with passPending := true }

/-- The part acts on nothing while RESETn holds it in reset (R174, log 9). -/
def State.whenRunning (s : State) (act : State → State) : State := if s.resetnLow then s else act s

/-! ### Queries -/

/-- The handle of the announcement in slot i (R3). -/
def State.handleAt (s : State) (i : SlotId) : Handle := handleOf s.slots[i].generation i

/-- The announcement is QUEUED, GRANTED, PLAYING or STOPPING: it is in the submission order list (R15). -/
def AnnState.scheduled : AnnState → Bool
  | .free => false
  | .building => false
  | .queued => true
  | .granted => true
  | .playing => true
  | .stopping => true

/-- The announcement is a candidate of a pass (R35). -/
def AnnState.candidate : AnnState → Bool
  | .queued => true
  | .granted => true
  | .free => false
  | .building => false
  | .playing => false
  | .stopping => false

/-- An announcement is QUEUED, GRANTED, PLAYING or STOPPING (R106, R148). -/
def State.anyScheduled (s : State) : Bool := allSlots.any fun i => s.slots[i].state.scheduled

/-- A host claim of mode EXCLUSIVE is WAITING or HELD (R22, R106). -/
def Claim.exclusive : Claim → Bool
  | .waiting .exclusive => true
  | .held .exclusive _ _ => true
  | .none => false
  | .waiting .shared => false
  | .held .shared _ _ => false

/-- The zones that are enabled (R33). -/
def State.enabledZones (s : State) : ZoneSet :=
  allZones.foldl (fun zs z => if s.stages[z].enabled then zs ||| zoneBit z else zs) 0#4

/-- The handle checks of R4: the slot, or the result that refuses the handle. -/
def State.checkHandle (s : State) (h : Handle) : Except ResultCode SlotId :=
  if s.slots[handleSlot h].state = .free then .error .badHandle
  else if s.slots[handleSlot h].generation ≠ handleGeneration h then .error .staleHandle
  else .ok (handleSlot h)

/-- The entry record of a clip number below the entry count whose valid indication is set (R117). -/
def Directory.validEntry (d : Directory) (n : Nat) : Bool :=
  match d.entries[n]? with
  | some entry => entry.valid
  | none => false

/-- The entry record an engine looks up (R118). ANN_SUBMIT has checked that it is there (R22); a clip number without
one finds an empty entry (log 21). -/
def Directory.entry (d : Directory) (n : Nat) : ClipEntry :=
  d.entries.getD n { start := 0#24, length := 0, coding := 0#8, rate := 0#8, trim := 0#8, valid := false }

/-! ### Event queue -/

/-- The enable of a kind; RESET_DONE and OVERFLOW are never masked (R161). -/
def EventQueue.enabled (q : EventQueue) : EventKind → Bool
  | .started => q.mask0.getLsbD 0
  | .mark => q.mask0.getLsbD 1
  | .segmentFault => q.mask0.getLsbD 2
  | .preempted => q.mask0.getLsbD 3
  | .finished => q.mask0.getLsbD 4
  | .zone => q.mask1.getLsbD 0
  | .directory => q.mask1.getLsbD 1
  | .claim => q.mask1.getLsbD 2
  | .resetDone => true
  | .overflow => true

/-- An OVERFLOW record stands in the queue. -/
def EventQueue.overflowing (q : EventQueue) : Bool := q.records.any fun r => r.kind == .overflow

/-- The dropped count of an OVERFLOW record rises by 1, saturating at 255 (R163); other records never change (R159). -/
def EventRecord.countDrop (r : EventRecord) : EventRecord :=
  if r.kind = .overflow then { r with d0 := byteOf (satSucc255 r.d0.toNat) } else r

/-- Offering an event to the queue (R161, R162). -/
def EventQueue.offer (q : EventQueue) (r : EventRecord) : EventQueue :=
  if !q.enabled r.kind then q
  else if q.overflowing then { q with records := q.records.map EventRecord.countDrop }
  else if 31 ≤ q.records.length then { q with records := q.records ++ [EventRecord.overflow] }
  else { q with records := q.records ++ [r] }

/-- A pop removes the head record; on an empty queue nothing changes (R166). -/
def EventQueue.pop (q : EventQueue) : EventQueue := { q with records := q.records.tail }

/-- An event is offered in the event in which the block acts (R161). -/
def State.offer (s : State) (r : EventRecord) : State := s.setEvents (s.events.offer r)

/-- Offers of several blocks that fall together (R164): each block's records in its own order, blocks in any order. The
free value chooses the block whose record is taken next while two or more still have one; `c` counts the choices. -/
def mergeOffers : Nat → List (List EventRecord) → EventQueue → Nat → EventQueue × Nat
  | 0, _, q, c => (q, c)
  | n + 1, sources, q, c =>
    match sources.filter fun l => !l.isEmpty with
    | [] => (q, c)
    | [one] => (one.foldl EventQueue.offer q, c)
    | many =>
      let k := Config.offerChoice c % many.length
      match many.getD k [] with
      | [] => (q, c)
      | r :: rest => mergeOffers n (many.set k rest) (q.offer r) (c + 1)

/-- The records of several blocks, each block's as one list, are offered (R164). -/
def State.offerFrom (s : State) (sources : List (List EventRecord)) : State :=
  let out := mergeOffers (sources.map List.length).sum sources s.events s.choices
  { s with events := out.1, choices := out.2 }

/-! ### Writes of the host -/

/-- A data byte written to address `a` reaches the register (R172, log 3): the open frame is a write frame whose
current address is `a`; or HCS is high, and the byte stands for a frame of its own. -/
def HostPort.carries (h : HostPort) (a : RegAddr) : Bool :=
  match h.frame with
  | some f =>
    match f.address with
    | some fa => !fa.read && fa.addr == a
    | none => false
  | none => !h.hcsLow

/-- The end of a data byte: eight more bits are counted, and with auto-increment the current address rises by 1, from
3Fh to 00h (R170, R173). -/
def HostFrame.advance (f : HostFrame) : HostFrame :=
  { bits := f.bits + 8
    address := f.address.map fun fa => if fa.autoInc then { fa with addr := fa.addr + 1#6 } else fa }

/-- The host port after a data byte. -/
def HostPort.advance (h : HostPort) : HostPort := { h with frame := h.frame.map HostFrame.advance }

/-- The open frame is a read frame whose current address is `a` (R171). -/
def HostPort.reads (h : HostPort) (a : RegAddr) : Bool :=
  match h.frame with
  | some f =>
    match f.address with
    | some fa => fa.read && fa.addr == a
    | none => false
  | none => false

/-- The register a read frame drives next on HSDO: the one at its current address (R171). -/
def State.drivenNext (s : State) (h : HostPort) : Option Byte :=
  match h.frame with
  | some f => f.address.map fun fa => s.readRegister fa.addr
  | none => none

/-- The end of a data byte of a read frame (R171, R173, log 18): the bits clocked in are ignored, the frame goes on, and
the next byte is driven from the register at the address it has reached. -/
def State.readByte (s : State) : State :=
  s.setHost { s.host.advance with hsdo := s.drivenNext s.host.advance }

/-- A data byte of a write frame takes effect at the register's owning block, and the frame goes on (R172, R173). A
data byte of a read frame writes nothing (R171). In any other case the byte is not one of `a` and nothing changes
(R174, log 3). -/
def State.hostWrite (s : State) (a : RegAddr) (act : State → State) : State :=
  if s.resetnLow then s
  else if s.host.carries a then
    let t := act s
    t.setHost t.host.advance
  else if s.host.reads a then s.readByte
  else s

/-! ### Command mailbox -/

/-- The end of a command: CRES and Q0 to Q3 are written and the mailbox becomes IDLE (R176). -/
def State.endCommand (s : State) (r : Reply) : State :=
  s.setMailbox { s.mailbox with executing := false, result := r.result, q := r.q }

/-- The latch of a command (R176). -/
def State.latchCommand (s : State) (code : Byte) : State :=
  s.setMailbox { s.mailbox with latched := s.mailbox.p, code := code, overrun := false, executing := true
                                foldedEnd := 0 }

/-- A CMD write while EXECUTING is discarded and sets overrun (R177). -/
def State.discardCommand (s : State) : State := s.setMailbox { s.mailbox with overrun := true }

/-- What an owning block does with a command: the state it leaves, and its reply, or none where the reply comes later
(R154). -/
abbrev Body := Params → State → State × Option Reply

/-- A command ends in the step that latched it; the frame's time within which its end lies (R176) holds at most one frame
of the clock, so that two must pass before it is over for certain (log 4). -/
def State.endAtOnce (s : State) (r : Reply) : State :=
  let t := s.endCommand r
  t.setMailbox { t.mailbox with foldedEnd := 2 }

/-- A CMD write: discarded while EXECUTING (R177); otherwise latched, handed to the owning block, and ended with the
block's reply (R176). -/
def State.cmdWrite (s : State) (code : Byte) (body : Body) : State :=
  if s.mailbox.executing then s.discardCommand
  else
    let t := s.latchCommand code
    let out := body t.mailbox.latched t
    match out.2 with
    | some r => out.1.endAtOnce r
    | none => out.1

/-- The address of CMD (11.2). -/
def cmdAddr : RegAddr := 0x0A#6

/-- The host writes a command's code to CMD. -/
def State.hostCommand (s : State) (code : Byte) (body : Body) : State :=
  s.hostWrite cmdAddr fun t => t.cmdWrite code body

/-! ### Zone stages: the idle hold, claimants and owners -/

/-- The zone is idle: READY with neither owner nor claimant, and no zone fade (R121). -/
def State.zoneIdle (s : State) (z : Zone) : Bool :=
  s.stages[z].bias == .ready && s.zones[z].owner.isNone && s.zones[z].claimant.isNone && s.stages[z].fade.isNone

/-- The idle timer starts from the idle hold (R125). -/
def Stage.startIdle (g : Stage) : Stage :=
  if g.idleHold = 0 then { g with bias := .rampDown, idleTimer := none }
  else if g.idleHold = 255 then { g with idleTimer := none }
  else { g with idleTimer := some (10 * g.idleHold) }

/-- A zone whose last owner or claimant has left becomes idle if it is READY without a zone fade (R125). -/
def State.settleIdle (s : State) (z : Zone) : State :=
  if s.zoneIdle z then s.setStage z s.stages[z].startIdle else s

/-- A claimant arrives on the zone (R124). -/
def Stage.claimantArrives (g : Stage) : Stage :=
  match g.bias with
  | .off => { g with bias := .rampUp }
  | .rampUp => g
  | .ready => { g with idleTimer := none }
  | .rampDown => if 1024 ≤ g.level then { g with bias := .ready } else { g with bias := .rampUp }

/-- The ZONE events a claimant's arrival queues: READY, where it finds RAMP_DOWN at level 1024 (R124, R137). -/
def Stage.arrivalEvents (g : Stage) (z : Zone) : List EventRecord :=
  if g.bias = .rampDown ∧ 1024 ≤ g.level then [EventRecord.zone z .ready] else []

/-- The idle timer is stopped and the bias goes to RAMP_DOWN from the state it is in; OFF stays OFF (R131, R139). -/
def Stage.rampDownNow (g : Stage) : Stage :=
  match g.bias with
  | .off => { g with idleTimer := none }
  | .rampUp => { g with bias := .rampDown, idleTimer := none }
  | .ready => { g with bias := .rampDown, idleTimer := none }
  | .rampDown => { g with idleTimer := none }

/-- A zone fade starts from the last sample (R132). The bias stays READY. -/
def Stage.startFade (g : Stage) (cause : FadeCause) : Stage :=
  { g with fade := some { position := 0, held := g.lastSample, cause := cause }, idleTimer := none }

/-- The claimant of z leaves without becoming its owner (R124, R125). -/
def State.dropClaimant (s : State) (z : Zone) : State :=
  (s.setZone z { s.zones[z] with claimant := none }).settleIdle z

/-- Each zone that names the announcement as claimant has its claimant removed (R24, R39, R44). -/
def State.withdrawClaims (s : State) (h : Handle) : State :=
  allZones.foldl (fun t z => if t.zones[z].claimant = some h then t.dropClaimant z else t) s

/-- A GRANTED announcement's record after a claim loss (R39). -/
def Slot.loseClaims (a : Slot) : Slot :=
  if a.state = .granted then { a with state := .queued, effZones := 0#4, startDue := false } else a

/-- The claim loss of R39: all claims go, the effective zones become absent, and the announcement is QUEUED. Any start
due for it is dropped (R41). -/
def State.claimLoss (s : State) (i : SlotId) : State :=
  let t := s.withdrawClaims (s.handleAt i)
  t.setSlot i t.slots[i].loseClaims

/-! ### The start check -/

/-- The announcement is ready to start: it is GRANTED, and each of its effective zones has no owner, is READY and has
no zone fade (R41). -/
def State.readyToStart (s : State) (i : SlotId) : Bool :=
  s.slots[i].state == .granted &&
    allZones.all fun z => !inZones s.slots[i].effZones z ||
      (s.zones[z].owner.isNone && s.stages[z].bias == .ready && s.stages[z].fade.isNone)

/-- The start check: when the condition holds, a start becomes due (R41). -/
def State.startCheck (s : State) (i : SlotId) : State :=
  if s.readyToStart i then s.setSlot i { s.slots[i] with startDue := true } else s

/-- The start check of a zone's claimant (R41). -/
def State.startCheckZone (s : State) (z : Zone) : State :=
  match s.zones[z].claimant with
  | some h => s.startCheck (handleSlot h)
  | none => s

/-- The owner of z leaves: the zone becomes idle, or its claimant's start is checked (R41, R125). -/
def State.dropOwner (s : State) (z : Zone) : State :=
  ((s.setZone z { s.zones[z] with owner := none }).settleIdle z).startCheckZone z

/-- Each zone that names the announcement as owner has its owner removed (R47, R50). -/
def State.releaseZones (s : State) (h : Handle) : State :=
  allZones.foldl (fun t z => if t.zones[z].owner = some h then t.dropOwner z else t) s

/-! ### Engines -/

/-- An engine's free space: 512 - fill - reserved (R60). -/
def Engine.freeSpace (e : Engine) : Nat := 512 - e.ring.length - e.reserved

/-- The engine is unbound (R58): the epoch advances, the ring is emptied, the request leaves the record (and the
arbiter, if it was not granted), and a report not yet taken is dropped (log 17). -/
def Engine.unbind (e : Engine) : Engine := Engine.idle (e.epoch + 1#8)

/-- The engine of a slot is unbound. -/
def State.unbindOf (s : State) (i : SlotId) : State :=
  match s.slots[i].engine with
  | some e => s.setEngine e s.engines[e].unbind
  | none => s

/-- The engine enters FADING with fade position 0 (R79). From PRIMING it goes on applying its exit test (R80). -/
def Engine.enterFading (e : Engine) : Engine :=
  { e with state := .fading, fadePos := 0, fadePriming := e.state == .priming }

/-- A request that has not been granted is withdrawn from the arbiter (R67, R144). -/
def Engine.withdrawUngranted (e : Engine) : Engine :=
  match e.request with
  | some r => if r.granted then e else { e with request := none }
  | none => e

/-- A PLAYING announcement becomes STOPPING (R6), and its engine enters FADING (R79). -/
def State.enterStopping (s : State) (i : SlotId) (why : Stopping) : State :=
  let t := match s.slots[i].engine with
    | some e => s.setEngine e s.engines[e].enterFading
    | none => s
  t.setSlot i { t.slots[i] with state := .stopping, stop := some why }

/-! ### Freeing and requeueing -/

/-- The freeing of a slot outside a reset (R28, R29): the FINISHED event, the records back to the pool, the entry out
of the submission order list, the next generation, FREE; and a pass where the slot was in the list. -/
def State.freeSlot (s : State) (i : SlotId) (outcome : AnnOutcome) : State :=
  let a := s.slots[i]
  let t := s.offer (EventRecord.finished (s.handleAt i) a.tag outcome a.underruns a.faultCount)
  { t with
    poolFree := t.poolFree + a.segments.length
    order := t.order.filter fun j => j != i
    passPending := t.passPending || t.order.contains i
    slots := t.slots.set i (Slot.free (a.generation + 1#4)) }

/-- The freeing of a slot by a soft reset: steps 2 to 5 of R28 with no event and no pass (R31). -/
def State.freeSlotInReset (s : State) (i : SlotId) : State :=
  let a := s.slots[i]
  if a.state = .free then s
  else
    { s with
      poolFree := s.poolFree + a.segments.length
      order := s.order.filter fun j => j != i
      slots := s.slots.set i (Slot.free (a.generation + 1#4)) }

/-- The requeue of an announcement (R7, R49): the play position by the policy, QUEUED, and a PREEMPTED event with the
given preemptor byte. -/
def State.requeue (s : State) (i : SlotId) (action : RequeueAction) (preemptor : Byte) : State :=
  let a := s.slots[i]
  let pos := match action with
    | .restart => (⟨0, 1⟩ : Position)
    | .resume => a.playPos
  let back := match action with
    | .restart => none
    | .resume => some a.playPos
  let t := s.setSlot i
    { a with state := .queued, playPos := pos, resume := back, effZones := 0#4, stop := none, engine := none
             startDue := false }
  t.offer (EventRecord.preempted (s.handleAt i) a.tag action preemptor pos.seg)

/-- The disposal of a STOPPING announcement at the end of its fade, by its stopping reason, policy and cancel pending
(R48). -/
def State.dispose (s : State) (i : SlotId) : State :=
  let a := s.slots[i]
  match a.stop with
  | some ⟨.cancelled, _, _⟩ => s.freeSlot i .cancelled
  | some ⟨.aborted, _, _⟩ => s.freeSlot i .aborted
  | some ⟨.preempted, true, _⟩ => s.freeSlot i .cancelled
  | some ⟨.preempted, false, by_⟩ =>
    match a.policy with
    | .discard => s.freeSlot i .preempted
    | .restart => s.requeue i .restart (by_.getD 0xFF#8)
    | .resume => s.requeue i .resume (by_.getD 0xFF#8)
  | none => s.freeSlot i .cancelled

/-- The announcement in slot i gives up its zones and its engine (R47, R50). -/
def State.giveUp (s : State) (i : SlotId) : State :=
  let t := (s.releaseZones (s.handleAt i)).unbindOf i
  t.setSlot i { t.slots[i] with effZones := 0#4, engine := none }

/-- The end of the fade of a STOPPING announcement (R47): it releases its zones and its engine, is disposed of, and a
pass is requested. -/
def State.endFade (s : State) (i : SlotId) : State := ((s.giveUp i).dispose i).requestPass

/-! ### Bursts -/

/-- The burst in progress ends (R142): FCS is released and the port becomes IDLE. -/
def Port.endBurst (p : Port) : Port := { p with state := .idle, burst := none, fcs := false }

/-- The burst in progress ends, and its data is still to be taken (R142, log 26). -/
def Port.endBeforeArrival (p : Port) : Port := { p.endBurst with arriving := p.burst }

/-- The burst whose data is taken next: one that has ended before, or else the one in progress, which ends with its
arrival (R142, log 26). -/
def Port.arrival (p : Port) : Option Burst :=
  match p.arriving with
  | some b => some b
  | none => p.burst

/-- The port once that data is taken (R142). -/
def Port.arrived (p : Port) : Port := if p.arriving.isSome then { p with arriving := none } else p.endBurst

/-! ### Host claims -/

/-- A HELD claim ends: FCS is released, the claim is NONE and the port IDLE (R153, R154, R158). -/
def Port.endClaim (p : Port) : Port := { p with fcs := false, claim := .none, state := .idle }

/-- A revocation at the hold limit (R153). -/
def State.revoke (s : State) : State :=
  (s.setPort { s.port.endClaim with revoked := true }).offer EventRecord.claimRevoked

end Sys2Proof.Machine
end

