-- ==== Sys2Proof/Machine/Announcements.lean ====
section
/-! DEFINITION. The five commands of the Announcement Table (1.6): ANN_OPEN, ANN_APPEND, ANN_SUBMIT, ANN_CANCEL and
ANN_STATUS. -/

namespace Sys2Proof.Machine

/-! ### ANN_OPEN -/

/-- The lowest-numbered FREE slot (R18). -/
def State.lowestFree (s : State) : Option SlotId := allSlots.find? fun i => s.slots[i].state == .free

/-- The record an accepted ANN_OPEN sets up (R18). -/
def Slot.opened (generation : BitVec 4) (policy : Policy) (p : Params) : Slot :=
  { Slot.free generation with
    state := .building, priority := p[0].toNat, zoneMask := p[1].setWidth 4, policy := policy
    repeatCount := p[3].toNat, repeatGap := p[4].toNat, deadlineSetting := p[5].toNat, tag := p[6] }

/-- The parameter checks of ANN_OPEN (R17): the policy, or none for BAD_PARAM. -/
def openPolicy (p : Params) : Option Policy :=
  if 7 < p[0].toNat ∨ p[1] = 0#8 ∨ 15 < p[1].toNat ∨ 15 < p[3].toNat then none else policyOfCode p[2]

/-- ANN_OPEN at the Announcement Table (R17, R18). -/
def annOpenBody : Body := fun p s =>
  match openPolicy p with
  | none => (s, some (Reply.plain .badParam))
  | some policy =>
    match s.lowestFree with
    | none => (s, some (Reply.plain .noSlot))
    | some i =>
      let g := s.slots[i].generation
      let t := s.setSlot i (Slot.opened g policy p)
      (t, some ⟨.ok, ⟨handleOf g i, byteOf t.freeSlots, 0#8, 0#8⟩⟩)

/-! ### ANN_APPEND -/

/-- ANN_APPEND at the Announcement Table (R19 to R21). -/
def annAppendBody : Body := fun p s =>
  match s.checkHandle p[0] with
  | .error r => (s, some (Reply.plain r))
  | .ok i =>
    let a := s.slots[i]
    if a.state ≠ .building then (s, some (Reply.plain .badState))
    else
      match segmentOfParams p with
      | none => (s, some (Reply.plain .badParam))
      | some segment =>
        if 32 ≤ a.segments.length then (s, some (Reply.plain .tooLong))
        else if s.poolFree = 0 then (s, some (Reply.plain .poolExhausted))
        else
          let t := { s.setSlot i { a with segments := a.segments ++ [segment] } with poolFree := s.poolFree - 1 }
          (t, some ⟨.ok, ⟨byteOf (a.segments.length + 1), t.freeSegReported, 0#8, 0#8⟩⟩)

/-! ### ANN_SUBMIT -/

/-- The list holds a CLIP or a GAP segment (R22). -/
def hasSound (segments : List Segment) : Bool :=
  segments.any fun g => match g with
    | .clip _ _ _ => true
    | .gap _ => true
    | .mark _ => false

/-- The index and clip number of the first CLIP segment, from index k on, whose clip is not valid in the directory
(R22, R117). -/
def firstBadClip (d : Directory) : Nat → List Segment → Option (Nat × Nat)
  | _, [] => none
  | k, .clip n _ _ :: rest => if d.validEntry n then firstBadClip d (k + 1) rest else some (k, n)
  | k, .gap _ :: rest => firstBadClip d (k + 1) rest
  | k, .mark _ :: rest => firstBadClip d (k + 1) rest

/-- The deadline an accepted ANN_SUBMIT arms: 100 ticks per unit, or none for a setting of 0 (R8). -/
def armedDeadline (setting : Nat) : Option Nat := if setting = 0 then none else some (100 * setting)

/-- ANN_SUBMIT at the Announcement Table (R22, R23). -/
def annSubmitBody : Body := fun p s =>
  match s.checkHandle p[0] with
  | .error r => (s, some (Reply.plain r))
  | .ok i =>
    let a := s.slots[i]
    if a.state ≠ .building then (s, some (Reply.plain .badState))
    else if s.port.claim.exclusive || s.dir.state == .loading then (s, some (Reply.plain .busy))
    else if s.dir.state ≠ .valid then (s, some (Reply.plain .dirInvalid))
    else if !hasSound a.segments then (s, some (Reply.plain .noSound))
    else
      match firstBadClip s.dir 0 a.segments with
      | some (k, n) =>
        (s, some ⟨.badClip, ⟨byteOf k, byteOf n, byteOf (n / 256 % 2), 0#8⟩⟩)
      | none =>
        let t := { s.setSlot i { a with state := .queued, deadline := armedDeadline a.deadlineSetting } with
                   order := s.order ++ [i] }
        (t.requestPass, some ⟨.ok, ⟨p[0], 0#8, 0#8, 0#8⟩⟩)

/-! ### ANN_CANCEL -/

/-- The reply of an accepted ANN_CANCEL: the state code in Q0 (R24 to R26). -/
def cancelReply (st : AnnState) : Option Reply := some ⟨.ok, ⟨annStateCode st, 0#8, 0#8, 0#8⟩⟩

/-- ANN_CANCEL of a STOPPING announcement (R26). -/
def cancelStopping (s : State) (i : SlotId) : State × Option Reply :=
  match s.slots[i].stop with
  | some ⟨.preempted, false, by_⟩ =>
    (s.setSlot i { s.slots[i] with stop := some ⟨.preempted, true, by_⟩ }, cancelReply .stopping)
  | _ => (s, some (Reply.plain .badState))

/-- ANN_CANCEL at the Announcement Table (R24 to R26). -/
def annCancelBody : Body := fun p s =>
  match s.checkHandle p[0] with
  | .error r => (s, some (Reply.plain r))
  | .ok i =>
    match s.slots[i].state with
    | .free => (s, some (Reply.plain .badHandle))
    | .building => (s.freeSlot i .cancelled, cancelReply .free)
    | .queued => ((s.freeSlot i .cancelled).requestPass, cancelReply .free)
    | .granted =>
      (((s.withdrawClaims (s.handleAt i)).freeSlot i .cancelled).requestPass, cancelReply .free)
    | .playing =>
      ((s.enterStopping i { reason := .cancelled, cancelPending := false, preemptor := none }).requestPass,
        cancelReply .stopping)
    | .stopping => cancelStopping s i

/-! ### ANN_STATUS -/

/-- ANN_STATUS at the Announcement Table (R27). -/
def annStatusBody : Body := fun p s =>
  match s.checkHandle p[0] with
  | .error r => (s, some (Reply.plain r))
  | .ok i =>
    let a := s.slots[i]
    (s, some ⟨.ok, ⟨annStateCode a.state, byteOf a.playPos.seg, byteOf a.playPos.pass,
      byteOf (16 * a.faultCount + min a.underruns 15)⟩⟩)

/-! ### The rows -/

/-- ANN_OPEN (R17, R18, R176). -/
def execAnnOpen (s : State) : Host.Outcome State Fault Refusal := .next (s.hostCommand 0x10#8 annOpenBody)

/-- ANN_APPEND (R19 to R21, R176). -/
def execAnnAppend (s : State) : Host.Outcome State Fault Refusal := .next (s.hostCommand 0x11#8 annAppendBody)

/-- ANN_SUBMIT (R22, R23, R176). -/
def execAnnSubmit (s : State) : Host.Outcome State Fault Refusal := .next (s.hostCommand 0x12#8 annSubmitBody)

/-- ANN_CANCEL (R24 to R26, R176). -/
def execAnnCancel (s : State) : Host.Outcome State Fault Refusal := .next (s.hostCommand 0x13#8 annCancelBody)

/-- ANN_STATUS (R27, R176). -/
def execAnnStatus (s : State) : Host.Outcome State Fault Refusal := .next (s.hostCommand 0x14#8 annStatusBody)

end Sys2Proof.Machine
end

