-- ==== Sys2Proof/Machine/Flash.lean ====
section
/-! DEFINITION. The Serial Memory Port's steps (chapter 7): FLASH_CONFIG, FLASH_CLAIM, FLASH_RELEASE, PTCTL_WRITE,
PTDAT_WRITE, PT_BYTE_END, HOLD_EXPIRY and PORT_GRANT. -/

namespace Sys2Proof.Machine

/-! ### Commands -/

/-- FLASH_CONFIG at the port (R143). -/
def flashConfigBody : Body := fun p s =>
  match flashClockOfCode p[0] with
  | none => (s, some (Reply.plain .badParam))
  | some clock =>
    if 1 < p[2].toNat ∨ p[3].toNat = 0 ∨ 15 < p[3].toNat then (s, some (Reply.plain .badParam))
    else
      (s.setPort { s.port with clock := clock, opcode := p[1], dummy := p[2].toNat, holdLimit := p[3].toNat },
        some (Reply.plain .ok))

/-- The mode of a FLASH_CLAIM is refused for now: EXCLUSIVE beside a scheduled announcement or a load (R148). -/
def State.claimBusy (s : State) (mode : ClaimMode) : Bool :=
  mode == .exclusive && (s.anyScheduled || s.dir.state == .loading)

/-- FLASH_CLAIM at the port (R148, R149). -/
def flashClaimBody : Body := fun p s =>
  match claimModeOfCode p[0] with
  | none => (s, some (Reply.plain .badParam))
  | some mode =>
    if s.port.claim ≠ .none then (s, some (Reply.plain .badState))
    else if s.claimBusy mode then (s, some (Reply.plain .busy))
    else
      (s.setPort { s.port with claim := .waiting mode, revoked := false, ptOverrun := false, notOwner := false },
        some (Reply.plain .ok))

/-- FLASH_RELEASE at the port (R154). With a byte in progress the reply comes when the byte has ended; an end already
pending stays as it is (log 13). -/
def flashReleaseBody : Body := fun _ s =>
  match s.port.claim with
  | .none => (s, some (Reply.plain .badState))
  | .waiting _ => (s.setPort { s.port with claim := .none }, some (Reply.plain .ok))
  | .held mode hold ending =>
    if s.port.ptByte.isNone then (s.setPort s.port.endClaim, some (Reply.plain .ok))
    else (s.setPort { s.port with claim := .held mode hold (some (ending.getD .release)) }, none)

/-! ### Pass-through registers -/

/-- A write to PTCTL (R150). Only the select bit is judged (R183). -/
def Port.writePtctl (p : Port) (value : Byte) : Port :=
  if !p.claim.isHeld then { p with notOwner := true }
  else if p.ptByte.isSome then { p with ptOverrun := true }
  else { p with fcs := value.getLsbD 0 }

/-- A write to PTDAT (R151, R152). -/
def Port.writePtdat (p : Port) (value : Byte) : Port :=
  if !p.claim.isHeld || !p.fcs then { p with notOwner := true }
  else if p.ptByte.isSome then { p with ptOverrun := true }
  else { p with ptByte := some { sent := value, clock := p.clock } }

/-- The end of a byte completes the end pending on the claim (R151, R153, R154, R158). -/
def State.completeEnd (s : State) : State :=
  match s.port.claim with
  | .held _ _ (some .revoke) => s.revoke
  | .held _ _ (some .release) => s.setPort s.port.endClaim
  | .held _ _ (some .reset) => s.setPort s.port.endClaim
  | .held _ _ none => s
  | .none => s
  | .waiting _ => s

/-- A FLASH_RELEASE that waited for the byte hands its result to the mailbox (R154). No other command leaves the
mailbox EXECUTING (log 20). -/
def State.endWaitingRelease (s : State) : State :=
  if s.mailbox.executing then s.endCommand (Reply.plain .ok) else s

/-- A pass-through byte ends (R151). -/
def State.takeByteEnd (s : State) (received : Byte) : State :=
  if s.port.ptByte.isNone then s
  else ((s.setPort { s.port with ptByte := none, received := received }).completeEnd).endWaitingRelease

/-! ### The hold -/

/-- The remaining hold of a HELD SHARED claim falls by 1 at a tick (R153). -/
def Claim.tick : Claim → Claim
  | .held mode hold ending => .held mode (hold.map fun n => n - 1) ending
  | .none => .none
  | .waiting mode => .waiting mode

/-- A remaining hold that has reached 0 expires (R153). An end already pending goes first (R155, R158). -/
def State.takeHoldExpiry (s : State) : State :=
  match s.port.claim with
  | .held mode (some 0) none =>
    if s.port.ptByte.isNone then s.revoke
    else s.setPort { s.port with claim := .held mode (some 0) (some .revoke) }
  | _ => s

/-! ### The arbiter -/

/-- Engine e has a request waiting at the arbiter (R144). -/
def State.engineWaits (s : State) (e : EngineId) : Bool :=
  match s.engines[e].request with
  | some r => !r.granted
  | none => false

/-- The engine requests in turn, from the engine after the round-robin pointer: the first one waiting (R145). -/
def State.nextEngine (s : State) : Option EngineId :=
  [s.port.pointer + 1, s.port.pointer + 2, s.port.pointer + 3, s.port.pointer].find? s.engineWaits

/-- A burst with the settings in force at its start (R141). -/
def Port.burstFor (p : Port) (who : Requester) (addr : FlashAddr) (count : Nat) : Burst :=
  { requester := who, addr := addr, count := count, received := [], clock := p.clock, opcode := p.opcode
    dummy := p.dummy }

/-- An engine's request is granted (R146): reserved is set for a DATA request. -/
def Engine.granted (e : Engine) (r : BurstRequest) : Engine :=
  { e with request := some { r with granted := true }
           reserved := match r.kind with
             | .data => r.count
             | .header => e.reserved }

/-- The grant of engine e's request (R141, R146). -/
def State.grantEngine (s : State) (e : EngineId) : State :=
  match s.engines[e].request with
  | some r =>
    (s.setPort { s.port with
      state := .engineBurst, burst := some (s.port.burstFor (.engine e r.epoch) r.addr r.count), fcs := true
      pointer := e }).setEngine e (s.engines[e].granted r)
  | none => s

/-- The grant of the loader's request, where one waits (R141, R146). -/
def State.grantLoader (s : State) : State :=
  match s.dir.progress with
  | some p =>
    match p.request with
    | some r =>
      if r.granted then s
      else
        (s.setPort { s.port with
          state := .directoryBurst, burst := some (s.port.burstFor (.loader r.number) r.addr r.count)
          fcs := true }).setDir { s.dir with progress := some { p with request := some { r with granted := true } } }
    | none => s
  | none => s

/-- The remaining hold loaded at a grant: the hold limit in ticks for SHARED (R149). -/
def Port.holdAtGrant (p : Port) : ClaimMode → Option Nat
  | .shared => some p.holdLimit
  | .exclusive => none

/-- The grant of the host's claim (R149): for EXCLUSIVE the directory becomes STALE (R116). -/
def State.grantClaim (s : State) (mode : ClaimMode) : State :=
  let t := s.setPort { s.port with state := .hostHeld, claim := .held mode (s.port.holdAtGrant mode) none, fcs := false }
  let u := match mode with
    | .exclusive => t.setDir { t.dir with state := .stale }
    | .shared => t
  u.offer (EventRecord.claimHeld mode)

/-- The arbiter's choice at an IDLE port: the host's claim first, then an engine, then the loader; nothing where none of
them waits (R145). -/
def State.arbitrate (s : State) : State :=
  match s.port.claim with
  | .waiting mode => s.grantClaim mode
  | _ =>
    match s.nextEngine with
    | some e => s.grantEngine e
    | none => s.grantLoader

/-- A host claim waits at the arbiter (R144). -/
def Claim.waits : Claim → Bool
  | .waiting _ => true
  | .none => false
  | .held _ _ _ => false

/-- The loader has a request waiting at the arbiter (R144). -/
def Directory.waits (d : Directory) : Bool :=
  match d.progress with
  | some p =>
    match p.request with
    | some r => !r.granted
    | none => false
  | none => false

/-- At least one requester waits (R145). -/
def State.anyWaits (s : State) : Bool := s.port.claim.waits || s.nextEngine.isSome || s.dir.waits

/-- The arbiter takes a grant (R145). A grant needs an IDLE port, so a grant taken beside a burst says that the burst has
ended: its data arrives after the grant (R142, log 26). It takes no grant under a HELD claim, where no requester waits, or
while the data of an earlier burst is still to arrive. -/
def State.takeGrant (s : State) : State :=
  match s.port.state with
  | .idle => s.arbitrate
  | .hostHeld => s
  | .engineBurst | .directoryBurst =>
    if s.port.arriving.isNone && s.anyWaits then (s.setPort s.port.endBeforeArrival).arbitrate else s

/-! ### The rows -/

/-- FLASH_CONFIG (R143, R176). -/
def execFlashConfig (s : State) : Host.Outcome State Fault Refusal := .next (s.hostCommand 0x40#8 flashConfigBody)

/-- FLASH_CLAIM (R148, R149, R176). -/
def execFlashClaim (s : State) : Host.Outcome State Fault Refusal := .next (s.hostCommand 0x41#8 flashClaimBody)

/-- FLASH_RELEASE (R154, R176). -/
def execFlashRelease (s : State) : Host.Outcome State Fault Refusal := .next (s.hostCommand 0x42#8 flashReleaseBody)

/-- PTCTL_WRITE (R150, R172). -/
def execPtctlWrite (value : Byte) (s : State) : Host.Outcome State Fault Refusal :=
  .next (s.hostWrite 0x30#6 fun t => t.setPort (t.port.writePtctl value))

/-- PTDAT_WRITE (R151, R152, R172). -/
def execPtdatWrite (value : Byte) (s : State) : Host.Outcome State Fault Refusal :=
  .next (s.hostWrite 0x31#6 fun t => t.setPort (t.port.writePtdat value))

/-- PT_BYTE_END (R151). -/
def execPtByteEnd (received : Byte) (s : State) : Host.Outcome State Fault Refusal :=
  .next (s.whenRunning fun t => t.takeByteEnd received)

/-- HOLD_EXPIRY (R153). -/
def execHoldExpiry (s : State) : Host.Outcome State Fault Refusal := .next (s.whenRunning State.takeHoldExpiry)

/-- PORT_GRANT (R145, R146, R149). -/
def execPortGrant (s : State) : Host.Outcome State Fault Refusal := .next (s.whenRunning State.takeGrant)

end Sys2Proof.Machine
end

