-- ==== Sys2Proof/Machine/Decoding.lean ====
section
/-! DEFINITION. Sample decoding and rate conversion (chapter 4): PCM8, PCM16 and SD4, the line between samples, and
the trim. -/

namespace Sys2Proof.Machine

/-- The codings of a clip (R86). -/
inductive Coding where
  | pcm8 | pcm16 | sd4
  deriving DecidableEq, Repr

/-- Coding codes: 1 PCM8, 2 PCM16, 3 SD4. A valid entry has no other (R111). -/
def codingOf (b : Byte) : Coding := if b = 1#8 then .pcm8 else if b = 2#8 then .pcm16 else .sd4

/-- The frames k that one decoded sample covers (R97). A valid entry has rate codes 0 to 4 alone (R111). -/
def framesPerSample (rate : Byte) : Nat :=
  if rate = 0#8 then 6 else if rate = 1#8 then 4 else if rate = 2#8 then 3 else if rate = 3#8 then 2 else 1

/-- A PCM8 sample (R87). -/
def pcm8Sample (b : Byte) : Int := ((b.toNat : Int) - 128) * 256

/-! ### SD4 -/

/-- M(0) to M(7) of R92. -/
def sd4Mantissas : List Nat := [16, 18, 20, 22, 24, 27, 30, 33]

/-- The step at index i: M(i modulo 8) × 2 to the power of (i div 8) (R92). -/
def sd4Step (i : Nat) : Nat := sd4Mantissas.getD (i % 8) 0 * 2 ^ (i / 8)

/-- The magnitude of a code: bits 0 to 2 (R93). -/
def codeMagnitude (code : BitVec 4) : Nat := code.toNat % 8

/-- The size of a code's move at a step, rounded down (R93). -/
def sd4Diff (code : BitVec 4) (step : Nat) : Nat := (2 * codeMagnitude code + 1) * step / 8

/-- The adjustment of the step index by the magnitude (R95). -/
def indexAdjust (m : Nat) : Int :=
  if m ≤ 3 then -1 else if m = 4 then 2 else if m = 5 then 4 else if m = 6 then 6 else 8

/-- The step index after a code, held to 0 to 79 (R95). -/
def nextStepIndex (i : Nat) (code : BitVec 4) : Nat :=
  (clampInt 0 79 ((i : Int) + indexAdjust (codeMagnitude code))).toNat

/-- The predictor after a code: it rises or falls by the diff and is held to the range of a sample (R94). -/
def nextPredictor (predictor : Int) (i : Nat) (code : BitVec 4) : Int :=
  let diff : Int := sd4Diff code (sd4Step i)
  clampSample (if code.getLsbD 3 then predictor - diff else predictor + diff)

/-- A code is decoded (R94): the predictor becomes the decoded sample and the step index is adjusted. -/
def Decoder.decodeCode (d : Decoder) (code : BitVec 4) : Decoder :=
  { d with predictor := nextPredictor d.predictor d.stepIndex code, stepIndex := nextStepIndex d.stepIndex code }

/-- The code in the low or the high four bits of a data byte (R89). -/
def codeOf (n : Nibble) (b : Byte) : BitVec 4 :=
  match n with
  | .low => b.setWidth 4
  | .high => (b >>> 4).setWidth 4

/-- The length of the SD4 block that starts with `rest` bytes of the clip still to take (R89). -/
def sd4BlockLength (rest : Nat) : Nat := if 128 ≤ rest then 128 else rest

/-- What becomes of an attempt to take a decoded sample (R70). -/
inductive Take where
  /-- The bytes the sample draws on are not all in the ring. -/
  | missing
  /-- An SD4 block header fails its checks (R90); the decoder holds the block's length. -/
  | formatFault (d : Decoder)
  /-- The sample, the decoder after it, and how many bytes leave the ring. -/
  | sample (value : Int) (d : Decoder) (removed : Nat)
  deriving DecidableEq, Repr

/-- The next sample of an SD4 clip (R90, R91, R94, R96). The block position equals the block length where the next
sample is the first of a block; both are 0 at the clip's start. -/
def takeSd4 (d : Decoder) (ring : List Byte) (rest : Nat) : Take :=
  if d.blockPos = d.blockLen then
    if ring.length < 5 then .missing
    else
      let d0 := { d with blockLen := sd4BlockLength rest }
      if 79 < (byteAt ring 2).toNat ∨ byteAt ring 3 ≠ 0#8 then .formatFault d0
      else
        let d1 := { d0 with predictor := signed16 (byteAt ring 0) (byteAt ring 1)
                            stepIndex := (byteAt ring 2).toNat, blockPos := 4, nibble := .low }
        let d2 := d1.decodeCode (codeOf .low (byteAt ring 4))
        .sample d2.predictor { d2 with nibble := .high } 4
  else
    match ring with
    | [] => .missing
    | b :: _ =>
      let d1 := d.decodeCode (codeOf d.nibble b)
      match d.nibble with
      | .low => .sample d1.predictor { d1 with nibble := .high } 0
      | .high => .sample d1.predictor { d1 with nibble := .low, blockPos := d1.blockPos + 1 } 1

/-- The next decoded sample of a clip from the head of the ring, with `rest` bytes of the clip still to take
(R86 to R90). -/
def takeSample (coding : Coding) (d : Decoder) (ring : List Byte) (rest : Nat) : Take :=
  match coding with
  | .pcm8 =>
    match ring with
    | b :: _ => .sample (pcm8Sample b) d 1
    | [] => .missing
  | .pcm16 =>
    match ring with
    | lo :: hi :: _ => .sample (signed16 lo hi) d 2
    | [_] => .missing
    | [] => .missing
  | .sd4 => takeSd4 d ring rest

/-! ### The line and the trim -/

/-- The converted value at phase j of a run of k frames, truncated toward zero (R97). -/
def converted (prev s : Int) (j k : Nat) : Int := prev + ((s - prev) * j).tdiv k

/-- The trimmed value (R99). -/
def trimmed (value : Int) (trim : Nat) : Int := clampSample ((value * trim).tdiv 16)

/-- A value scaled by the fade factor (256 - position) / 256, truncated toward zero (R80, R132). -/
def faded (value : Int) (position : Nat) : Int := (value * (256 - (position : Int))).tdiv 256

/-- The first frame of a run: sample s is taken and the phase becomes 1 (R97). -/
def Decoder.beginRun (d : Decoder) (s : Int) : Decoder := { d with current := s, phase := 1 }

/-- The end of a run: the previous sample becomes the current one and the phase returns to 0 (R97). -/
def Decoder.endRun (d : Decoder) : Decoder :=
  if d.phase = 0 then d else { d with previous := d.current, phase := 0 }

/-- Entry into a CLIP segment: block position, block length and nibble are set back (R85). -/
def Decoder.enterClip (d : Decoder) : Decoder := { d with blockPos := 0, blockLen := 0, nibble := .low }

/-- Entry into a GAP or repeat gap: the previous sample becomes 0 (R98). -/
def Decoder.enterGap (d : Decoder) : Decoder := { d with previous := 0 }

end Sys2Proof.Machine
end

