-- ==== Sys2Proof/Machine/Zones.lean ====
section
/-! DEFINITION. The zone stages' steps (chapter 6): ZONE_SET, IDLE_TIMER_EXPIRY, ZONE_FADE_END, BIAS_READY and
BIAS_OFF; and one frame of a stage. -/

namespace Sys2Proof.Machine

/-! ### One frame of a stage -/

/-- One frame of the bias ramp (R123). -/
def Stage.rampFrame (g : Stage) : Stage :=
  match g.bias with
  | .off => g
  | .rampUp => { g with level := min 1024 (g.level + 1) }
  | .ready => g
  | .rampDown => { g with level := g.level - 1 }

/-- The audio term of a sample at a volume, each division truncated toward zero (R127). -/
def audioTerm (sample : Int) (volume : Nat) : Int := ((sample * volume).tdiv 128).tdiv 16

/-- The DAC code of a bias level and an audio term (R129). -/
def dacCode (level : Nat) (audio : Int) : Nat := (clampInt 0 4095 (2 * (level : Int) + audio)).toNat

/-- One frame of a stage: the ramp moves, the audio sample is the owner's, or that of the zone fade, or 0 (R127), the
fade's position rises to at most 256 (R132), and the DAC is driven (R129). `owned` is the sample of the owner's
engine, where the zone has an owner. -/
def Stage.frame (g : Stage) (owned : Option Int) : Stage :=
  let r := g.rampFrame
  match owned with
  | some x => { r with lastSample := x, dac := dacCode r.level (audioTerm x r.volumeCurrent) }
  | none =>
    match r.fade with
    | some f =>
      { r with fade := some { f with position := min 256 (f.position + 1) }
               dac := dacCode r.level
                 (audioTerm (if f.position < 256 then faded f.held f.position else 0) r.volumeCurrent) }
    | none => { r with dac := dacCode r.level 0 }

/-- The volume current moves one step toward the target (R128). -/
def Stage.slew (g : Stage) : Stage :=
  if g.volumeCurrent < g.volumeTarget then { g with volumeCurrent := g.volumeCurrent + 1 }
  else if g.volumeTarget < g.volumeCurrent then { g with volumeCurrent := g.volumeCurrent - 1 }
  else g

/-- A running idle timer falls by 1 at a tick (R125). -/
def Stage.tick (g : Stage) : Stage := { g with idleTimer := g.idleTimer.map fun n => n - 1 }

/-! ### ZONE_SET -/

/-- Step 1 of R136: the volume target. -/
def State.setVolume (s : State) (z : Zone) (volume : Nat) : State :=
  s.setStage z { s.stages[z] with volumeTarget := volume }

/-- Step 2 of R136: a new idle hold restarts the timer of an idle zone. -/
def State.setIdleHold (s : State) (z : Zone) (hold : Nat) : State :=
  if s.stages[z].idleHold = hold then s
  else (s.setStage z { s.stages[z] with idleHold := hold }).settleIdle z

/-- An owner loses zone z by a disable (R52, R53): the zone leaves its effective zones; with no zone left a PLAYING
announcement ends at once by its policy, and a STOPPING one's fade is treated as ended. -/
def State.ownerLosesZone (s : State) (i : SlotId) (z : Zone) : State :=
  let t := (s.setZone z { s.zones[z] with owner := none }).setSlot i
    { s.slots[i] with effZones := s.slots[i].effZones &&& ~~~ zoneBit z }
  if t.slots[i].effZones ≠ 0#4 then t
  else
    match t.slots[i].state with
    | .playing =>
      match t.slots[i].policy with
      | .discard => (t.giveUp i).freeSlot i .zoneLost
      | .restart => (t.giveUp i).requeue i .restart 0xFF#8
      | .resume => (t.giveUp i).requeue i .resume 0xFF#8
    | .stopping => t.endFade i
    | .free => t
    | .building => t
    | .queued => t
    | .granted => t

/-- The scheduler's part of a disable of zone z: first its claimant, then its owner (R52). -/
def State.disableInScheduler (s : State) (z : Zone) : State :=
  let t := match s.zones[z].claimant with
    | some h => s.claimLoss (handleSlot h)
    | none => s
  match t.zones[z].owner with
  | some h => t.ownerLosesZone (handleSlot h) z
  | none => t

/-- The stage's part of a disable, told with the owner already removed (R131): a zone fade where the zone had an owner;
a fade already present goes on; otherwise the bias ramps down at once. -/
def Stage.disabled (g : Stage) (hadOwner : Bool) : Stage :=
  if hadOwner then g.startFade .disable
  else if g.fade.isSome then g
  else g.rampDownNow

/-- A ZONE_SET disables zone z (R52, R131). -/
def State.disableZone (s : State) (z : Zone) : State :=
  let hadOwner := s.zones[z].owner.isSome
  let recorded := s.setStage z { s.stages[z] with enabled := false }
  let scheduled := recorded.disableInScheduler z
  (scheduled.setStage z (scheduled.stages[z].disabled hadOwner)).requestPass

/-- A ZONE_SET enables zone z (R51, R134): a pass is requested and the bias machine is not moved. -/
def State.enableZone (s : State) (z : Zone) : State :=
  (s.setStage z { s.stages[z] with enabled := true }).requestPass

/-- Step 3 of R136: the enable. -/
def State.setEnable (s : State) (z : Zone) (enable : Bool) : State :=
  if s.stages[z].enabled = enable then s else if enable then s.enableZone z else s.disableZone z

/-- ZONE_SET at the zone stage (R135, R136). -/
def zoneSetBody : Body := fun p s =>
  if h : p[0].toNat < 4 then
    if 1 < p[1].toNat ∨ 128 < p[2].toNat then (s, some (Reply.plain .badParam))
    else
      let z : Zone := ⟨p[0].toNat, h⟩
      let t := ((s.setVolume z p[2].toNat).setIdleHold z p[3].toNat).setEnable z (p[1] == 1#8)
      (t, some ⟨.ok, ⟨biasCode t.stages[z].bias, byteOf t.stages[z].volumeCurrent,
        byteOf (bitOf t.zones[z].owner.isSome), byteOf (bitOf t.zones[z].claimant.isSome)⟩⟩)
  else (s, some (Reply.plain .badParam))

/-! ### Expiry, fade end, bias -/

/-- A running idle timer that has reached 0 expires (R125). -/
def State.takeIdleExpiry (s : State) (z : Zone) : State :=
  if s.stages[z].idleTimer = some 0 then
    s.setStage z { s.stages[z] with idleTimer := none, bias := .rampDown }
  else s

/-- What the stage does at the end of a zone fade with no claimant (R133). -/
def State.afterZoneFade (s : State) (z : Zone) (cause : FadeCause) : State :=
  match s.stages[z].enabled, cause with
  | true, .disable => s.settleIdle z
  | true, .softReset => s.setStage z s.stages[z].rampDownNow
  | false, _ => s.setStage z s.stages[z].rampDownNow

/-- A zone fade whose position has reached 256 ends (R133). -/
def State.takeZoneFadeEnd (s : State) (z : Zone) : State :=
  match s.stages[z].fade with
  | none => s
  | some f =>
    if f.position < 256 then s
    else
      let t := s.setStage z { s.stages[z] with fade := none }
      if t.zones[z].claimant.isSome then t.startCheckZone z else t.afterZoneFade z f.cause

/-- A ramp up that has reached level 1024 ends READY (R123, R125, R137). -/
def State.takeBiasReady (s : State) (z : Zone) : State :=
  if s.stages[z].bias = .rampUp ∧ 1024 ≤ s.stages[z].level then
    let t := (s.setStage z { s.stages[z] with bias := .ready }).offer (EventRecord.zone z .ready)
    if t.zones[z].claimant.isSome then t.startCheckZone z else t.settleIdle z
  else s

/-- A ramp down that has reached level 0 ends OFF (R123, R137). -/
def State.takeBiasOff (s : State) (z : Zone) : State :=
  if s.stages[z].bias = .rampDown ∧ s.stages[z].level = 0 then
    (s.setStage z { s.stages[z] with bias := .off }).offer (EventRecord.zone z .off)
  else s

/-! ### The rows -/

/-- ZONE_SET (R135, R136, R176). -/
def execZoneSet (s : State) : Host.Outcome State Fault Refusal := .next (s.hostCommand 0x20#8 zoneSetBody)

/-- IDLE_TIMER_EXPIRY (R125). -/
def execIdleTimerExpiry (z : Zone) (s : State) : Host.Outcome State Fault Refusal :=
  .next (s.whenRunning fun t => t.takeIdleExpiry z)

/-- ZONE_FADE_END (R133). -/
def execZoneFadeEnd (z : Zone) (s : State) : Host.Outcome State Fault Refusal :=
  .next (s.whenRunning fun t => t.takeZoneFadeEnd z)

/-- BIAS_READY (R123). -/
def execBiasReady (z : Zone) (s : State) : Host.Outcome State Fault Refusal :=
  .next (s.whenRunning fun t => t.takeBiasReady z)

/-- BIAS_OFF (R123). -/
def execBiasOff (z : Zone) (s : State) : Host.Outcome State Fault Refusal :=
  .next (s.whenRunning fun t => t.takeBiasOff z)

end Sys2Proof.Machine
end

