-- ==== Sys2Proof/Machine/Clock.lean ====
section
/-! DEFINITION. The ticks of the frame clock (R1): TICK and VOLUME_SLEW_STEP. -/

namespace Sys2Proof.Machine

/-- A deadline that is armed falls by 1 at a tick while the announcement is QUEUED or GRANTED (R44). -/
def Slot.tick (a : Slot) : Slot :=
  if a.state.candidate then { a with deadline := a.deadline.map fun n => n - 1 } else a

/-- What counts at a tick (R1): the start deadlines, the idle timers and the remaining hold. -/
def State.countTick (s : State) : State :=
  { s with
    clock := { s.clock with ticksDue := s.clock.ticksDue - 1 }
    slots := Vector.ofFn fun i : SlotId => s.slots[i].tick
    stages := Vector.ofFn fun z : Zone => s.stages[z].tick
    port := { s.port with claim := s.port.claim.tick } }

/-- A tick that has fallen is taken (R1, log 10). -/
def State.takeTick (s : State) : State := if s.clock.ticksDue = 0 then s else s.countTick

/-- Every zone's volume current moves one step (R128). -/
def State.slewAll (s : State) : State :=
  { s with
    clock := { s.clock with slewsDue := s.clock.slewsDue - 1 }
    stages := Vector.ofFn fun z : Zone => s.stages[z].slew }

/-- A slew step that has fallen is taken (R1, R128, log 10). -/
def State.takeSlew (s : State) : State := if s.clock.slewsDue = 0 then s else s.slewAll

/-- TICK (R1, R44, R125, R153). -/
def execTick (s : State) : Host.Outcome State Fault Refusal := .next (s.whenRunning State.takeTick)

/-- VOLUME_SLEW_STEP (R128). -/
def execVolumeSlewStep (s : State) : Host.Outcome State Fault Refusal := .next (s.whenRunning State.takeSlew)

end Sys2Proof.Machine
end

