-- ==== Sys2Proof/Machine/Directory.lean ====
section
/-! DEFINITION. The Clip Directory and its loader (chapter 5): DIR_LOAD and LOADER_BURST_ARRIVAL. -/

namespace Sys2Proof.Machine

/-! ### DIR_LOAD -/

/-- The loader's progress at the acceptance of DIR_LOAD: the header burst is requested (R107, R108). The next index, the
header's count and checksum and the running sum have no value before the header is accepted (R109): the model holds them
at 0 (DESIGN CHOICE, log 6). -/
def LoadProgress.begin (number : BitVec 8) (base : FlashAddr) : LoadProgress :=
  { phase := .header, nextIndex := 0, count := 0, checksum := 0#16, sum := 0#16
    request := some { number := number, addr := base, count := 8, granted := false } }

/-- An accepted DIR_LOAD (R107). -/
def Directory.beginLoad (d : Directory) (base : FlashAddr) : Directory :=
  { state := .loading, base := base, entries := [], invalid := 0, loadNumber := d.loadNumber + 1#8
    progress := some (LoadProgress.begin (d.loadNumber + 1#8) base) }

/-- DIR_LOAD at the Clip Directory (R106, R107). -/
def dirLoadBody : Body := fun p s =>
  if s.anyScheduled || s.dir.state == .loading then (s, some (Reply.plain .busy))
  else if s.port.claim.exclusive then (s, some (Reply.plain .busy))
  else if p[0] ≠ 0#8 then (s, some (Reply.plain .badParam))
  else (s.setDir (s.dir.beginLoad (baseOfParams p)), some (Reply.plain .ok))

/-! ### The arrival of a loader burst -/

/-- The twelve bytes of an entry as an entry record, not yet judged (R104). -/
def entryOfBytes (bytes : List Byte) : ClipEntry :=
  { start := BitVec.ofNat 24 (littleEndian [byteAt bytes 0, byteAt bytes 1, byteAt bytes 2])
    length := littleEndian [byteAt bytes 3, byteAt bytes 4, byteAt bytes 5]
    coding := byteAt bytes 6, rate := byteAt bytes 7, trim := byteAt bytes 8, valid := false }

/-- The judgement of an entry by its own fields and the flags byte (R111). -/
def entryValid (entry : ClipEntry) (flags : Byte) : Bool :=
  flags.getLsbD 0
    && (entry.coding == 1#8 || entry.coding == 2#8 || entry.coding == 3#8)
    && decide (entry.rate.toNat ≤ 4) && decide (entry.trim.toNat ≤ 31) && decide (entry.length ≠ 0)
    && decide (entry.start.toNat + 8 + entry.length ≤ 0x1000000)
    && !(entry.coding == 2#8 && entry.length % 2 == 1)
    && !(entry.coding == 3#8 && decide (1 ≤ entry.length % 128) && decide (entry.length % 128 ≤ 4))

/-- The sum of a run of bytes, modulo 65536 (R103, R110). -/
def sumBytes (bytes : List Byte) : BitVec 16 := bytes.foldl (fun x b => x + b.setWidth 16) 0#16

/-- One entry of an entry burst is summed, stored and judged (R110). -/
def Directory.storeEntry (d : Directory) (bytes : List Byte) : Directory :=
  let raw := entryOfBytes bytes
  let ok := entryValid raw (byteAt bytes 9)
  { d with entries := d.entries ++ [{ raw with valid := ok }], invalid := if ok then d.invalid else d.invalid + 1 }

/-- The entries of a burst are taken one by one, twelve bytes each; `fuel` is the number of bytes (R110). -/
def storeEntries : Nat → List Byte → Directory → BitVec 16 → Directory × BitVec 16
  | 0, _, d, sum => (d, sum)
  | fuel + 1, data, d, sum =>
    if data.length < 12 then (d, sum)
    else storeEntries fuel (data.drop 12) (d.storeEntry (data.take 12)) (sum + sumBytes (data.take 12))

/-- The request for the run of up to five entries from index i on, of a directory of `count` entries (R108). -/
def entryRequest (d : Directory) (i count : Nat) : LoaderRequest :=
  { number := d.loadNumber, addr := d.base + BitVec.ofNat 24 (8 + 12 * i), count := 12 * min 5 (count - i)
    granted := false }

/-- A load fails at its header (R109): FAILED, the table empty, and the progress record given up. -/
def Directory.fail (d : Directory) : Directory :=
  { d with state := .failed, entries := [], invalid := 0, progress := none }

/-- A failed load reports its DIRECTORY event (R109, R112, R114). -/
def State.failLoad (s : State) (reason : LoadResult) (count invalid : Nat) : State :=
  (s.setDir s.dir.fail).offer (EventRecord.directory reason count invalid)

/-- The header burst arrives (R103, R109). -/
def State.takeDirHeader (s : State) (data : List Byte) : State :=
  let count := littleEndian [byteAt data 4, byteAt data 5]
  if byteAt data 0 ≠ 0xA2#8 ∨ byteAt data 1 ≠ 0x4C#8 then s.failLoad .badIdent 0 0
  else if byteAt data 2 ≠ 1#8 then s.failLoad .badVersion 0 0
  else if count = 0 ∨ 512 < count then s.failLoad .badCount 0 0
  else
    let p : LoadProgress :=
      { phase := .entries, nextIndex := 0, count := count
        checksum := BitVec.ofNat 16 (littleEndian [byteAt data 6, byteAt data 7]), sum := 0#16
        request := some (entryRequest s.dir 0 count) }
    s.setDir { s.dir with progress := some p }

/-- The end of a load whose header was accepted (R112). -/
def State.endLoad (s : State) (d : Directory) (count : Nat) (matched : Bool) : State :=
  if matched then
    (s.setDir { d with state := .valid, progress := none }).offer
      (EventRecord.directory .valid d.entries.length d.invalid)
  else (s.setDir d).failLoad .badChecksum count d.invalid

/-- An entry burst arrives (R110). -/
def State.takeDirEntries (s : State) (p : LoadProgress) (data : List Byte) : State :=
  let out := storeEntries data.length data s.dir p.sum
  let d := out.1
  let next := d.entries.length
  if next < p.count then
    let q := { p with nextIndex := next, sum := out.2, request := some (entryRequest d next p.count) }
    s.setDir { d with progress := some q }
  else s.endLoad d p.count (out.2 == p.checksum)

/-- A loader burst's data reaches the loader (R108): discarded where the directory is no longer LOADING or the load
number differs. -/
def State.takeLoaderData (s : State) (number : BitVec 8) (data : List Byte) : State :=
  match s.dir.state, s.dir.progress with
  | .loading, some p =>
    if number ≠ s.dir.loadNumber then s
    else
      match p.phase with
      | .header => s.takeDirHeader data
      | .entries => s.takeDirEntries { p with request := none } data
  | _, _ => s

/-- The data of the loader's burst is taken, at the end of the burst or after it (R142, R108). Data of another length, or a burst that is not
the loader's, is no arrival (log 7). -/
def State.takeLoaderArrival (s : State) (data : List Byte) : State :=
  match s.port.arrival with
  | some b =>
    match b.requester with
    | .loader number =>
      if b.received.length + data.length = b.count then
        (s.setPort s.port.arrived).takeLoaderData number (b.received ++ data)
      else s
    | .engine _ _ => s
  | none => s

/-! ### The rows -/

/-- DIR_LOAD (R106, R107, R176). -/
def execDirLoad (s : State) : Host.Outcome State Fault Refusal := .next (s.hostCommand 0x30#8 dirLoadBody)

/-- LOADER_BURST_ARRIVAL (R108 to R114). -/
def execLoaderBurstArrival (data : List Byte) (s : State) : Host.Outcome State Fault Refusal :=
  .next (s.whenRunning fun t => t.takeLoaderArrival data)

end Sys2Proof.Machine
end

