-- ==== Sys2Proof/Machine/Fetch.lean ====
section
/-! DEFINITION. The fetch side of an engine (3.4): the fetch cursor's walk under the lap rule, burst requests, the
clip header check, and the arrival of a burst. -/

namespace Sys2Proof.Machine

/-- The fault mark of a CLIP segment is set or cleared (R12); other segments have none. -/
def Segment.withFault (fault : Bool) : Segment → Segment
  | .clip n t _ => .clip n t fault
  | .gap ms => .gap ms
  | .mark v => .mark v

/-- The fault mark of segment k of a list. -/
def setFault (segments : List Segment) (k : Nat) (fault : Bool) : List Segment :=
  segments.modify k (Segment.withFault fault)

/-- Passes remain after pass p: the repeat count is 0, or p is below it (R64). -/
def passesRemain (repeatCount p : Nat) : Bool := repeatCount == 0 || decide (p < repeatCount)

/-- The fetch cursor walks on from where it stands before segment `c.seg` (R62, R64, R65). It enters a segment unless
the lap rule holds it back; `playSeg` is the play cursor's segment, so that the segments below it have been left. An
entered segment's fault mark is cleared (R64). It stops at a CLIP in phase HEADER, WAITING under the lap rule, or DONE
past the last segment of the final pass. `fuel` bounds the walk: two passes of the list always suffice (log 21). -/
def walkFetch (repeatCount playSeg : Nat) : Nat → List Segment → FetchCursor → List Segment × FetchCursor
  | 0, segments, c => (segments, { c with phase := .waiting })
  | fuel + 1, segments, c =>
    if c.seg < segments.length then
      if c.lap = .same ∨ c.seg < playSeg then
        let entered := setFault segments c.seg false
        match segments[c.seg]? with
        | some (.clip _ _ _) => (entered, { c with offset := 0, phase := .header })
        | _ => walkFetch repeatCount playSeg fuel entered { c with seg := c.seg + 1 }
      else (segments, { c with phase := .waiting })
    else if passesRemain repeatCount c.pass then
      walkFetch repeatCount playSeg fuel segments { c with seg := 0, pass := satSucc255 c.pass, lap := .next }
    else (segments, { c with phase := .done })

/-- Fuel for one walk over a list of n segments: the rest of a pass, the end of a pass, and a whole pass. -/
def walkFuel (n : Nat) : Nat := 2 * n + 2

/-- An engine with its announcement's record: what the fetch side and the play side act on. -/
structure Bound where
  eng : Engine
  slot : Slot
  deriving DecidableEq, Repr

/-- The fetch cursor moves to segment k and walks on from there. -/
def Bound.walkFrom (b : Bound) (k : Nat) : Bound :=
  let out := walkFetch b.slot.repeatCount b.eng.play.seg (walkFuel b.slot.segments.length) b.slot.segments
    { b.eng.fetch with seg := k }
  { eng := { b.eng with fetch := out.2 }, slot := { b.slot with segments := out.1 } }

/-- A WAITING fetch cursor tries again after the play cursor has moved (R64). -/
def Bound.retryFetch (b : Bound) : Bound :=
  if b.eng.fetch.phase = .waiting then b.walkFrom b.eng.fetch.seg else b

/-- The clip number of the segment under a cursor; 0 where there is no CLIP. -/
def clipNumberAt (segments : List Segment) (k : Nat) : Nat :=
  match segments[k]? with
  | some (.clip n _ _) => n
  | _ => 0

/-- The entry record of the clip under the fetch cursor (R118). -/
def Bound.fetchEntry (b : Bound) (d : Directory) : ClipEntry := d.entry (clipNumberAt b.slot.segments b.eng.fetch.seg)

/-- The conditions of R61 under which the fetch side makes a request. -/
def Engine.mayRequest (e : Engine) : Bool :=
  e.binding.isSome && e.request.isNone && decide (64 ≤ e.freeSpace)
    && (e.fetch.phase == .header || e.fetch.phase == .data)
    && e.play.stage != .halted && decide (e.fadePos < 256)

/-- The request the fetch cursor asks for (R62): the 8 bytes of the clip header, or the smaller of 64 and the rest of
the clip's data. -/
def Bound.nextRequest (b : Bound) (d : Directory) : BurstRequest :=
  let entry := b.fetchEntry d
  match b.eng.fetch.phase with
  | .data =>
    { kind := .data, addr := entry.start + 8#24 + BitVec.ofNat 24 b.eng.fetch.offset
      count := min 64 (entry.length - b.eng.fetch.offset), epoch := b.eng.epoch, granted := false, dropped := false }
  | _ =>
    { kind := .header, addr := entry.start, count := 8, epoch := b.eng.epoch, granted := false, dropped := false }

/-- R61 is evaluated: a request is handed to the arbiter where its conditions hold. -/
def Bound.considerRequest (b : Bound) (d : Directory) : Bound :=
  if b.eng.mayRequest then { b with eng := { b.eng with request := some (b.nextRequest d) } } else b

/-- The checks of a clip header against the directory entry (R63, R105). -/
def headerMatches (data : List Byte) (entry : ClipEntry) : Bool :=
  byteAt data 0 == 0xC5#8 && byteAt data 1 == 0x3A#8
    && byteAt data 7 == (data.take 7).foldl (fun x y => x ^^^ y) 0#8
    && byteAt data 2 == entry.coding && byteAt data 3 == entry.rate
    && littleEndian [byteAt data 4, byteAt data 5, byteAt data 6] == entry.length

/-- A header arrives with a matching token (R63): accepted, the phase becomes DATA at offset 0; otherwise the
segment's fault mark is set and the cursor moves to the next segment. -/
def Bound.takeHeader (b : Bound) (d : Directory) (data : List Byte) : Bound :=
  if headerMatches data (b.fetchEntry d) then
    { b with eng := { b.eng with fetch := { b.eng.fetch with phase := .data, offset := 0 } } }
  else
    let k := b.eng.fetch.seg
    let marked := { b with slot := { b.slot with segments := setFault b.slot.segments k true } }
    marked.walkFrom (k + 1)

/-- Data arrives with a matching token and dropped clear (R66): the bytes join the ring, the offset rises, and the
cursor moves on if the clip is complete. -/
def Bound.takeData (b : Bound) (d : Directory) (data : List Byte) : Bound :=
  let offset := b.eng.fetch.offset + data.length
  let joined := { b with eng :=
    { b.eng with ring := b.eng.ring ++ data, reserved := 0, fetch := { b.eng.fetch with offset := offset } } }
  if offset = (b.fetchEntry d).length then joined.walkFrom (b.eng.fetch.seg + 1) else joined

/-- A burst arrives with a matching token (R66), by the request it answers; then R61 is evaluated again. -/
def Bound.takeArrival (b : Bound) (d : Directory) (data : List Byte) : Bound :=
  match b.eng.request with
  | some r =>
    let open_ := { b with eng := { b.eng with request := none } }
    let handled :=
      match r.kind, r.dropped with
      | .header, _ => open_.takeHeader d data
      | .data, false => open_.takeData d data
      | .data, true => { open_ with eng := { open_.eng with reserved := 0 } }
    handled.considerRequest d
  | none => b

/-- The record an engine sets up when it is bound (R57), before the fetch cursor enters its first segment. -/
def Engine.bound (e : Engine) (h : Handle) (pos : Position) : Engine :=
  { Engine.idle e.epoch with
    state := .priming, binding := some h
    fetch := { pass := pos.pass, seg := pos.seg, offset := 0, phase := .waiting, lap := .same }
    play := { pass := pos.pass, seg := pos.seg, stage := .segment } }

/-- The bind (R57): every fault mark is cleared, the record is set up at the play position, the fetch cursor enters
its segment, and R61 is evaluated. -/
def bindEngine (d : Directory) (e : Engine) (a : Slot) (h : Handle) : Bound :=
  let cleared := { a with segments := a.segments.map (Segment.withFault false) }
  let b : Bound := { eng := e.bound h a.playPos, slot := cleared }
  (b.walkFrom a.playPos.seg).considerRequest d

end Sys2Proof.Machine
end

