-- ==== Sys2Proof/Machine/Play.lean ====
section
/-! DEFINITION. The play side of an engine (3.5, 3.6): what a bound engine does at one frame. -/

namespace Sys2Proof.Machine

/-- The play side at work within one frame: the engine and its announcement, the announcement's handle, the records it
has to offer in order, and whether it has requested a scheduling pass. -/
structure Play where
  bound : Bound
  handle : Handle
  events : List EventRecord
  pass : Bool
  deriving DecidableEq, Repr

/-- The engine of a play side. -/
def Play.eng (p : Play) : Engine := p.bound.eng

/-- The announcement of a play side. -/
def Play.slot (p : Play) : Slot := p.bound.slot

/-- The engine becomes x. -/
def Play.withEng (p : Play) (x : Engine) : Play := { p with bound := { p.bound with eng := x } }

/-- The announcement's record becomes x. -/
def Play.withSlot (p : Play) (x : Slot) : Play := { p with bound := { p.bound with slot := x } }

/-- The play position is written as the play cursor enters a segment or a pass, while the announcement is PLAYING
(R7, R70). -/
def Play.writePosition (p : Play) : Play :=
  if p.slot.state = .playing then
    p.withSlot { p.slot with playPos := ⟨p.eng.play.seg, p.eng.play.pass⟩ }
  else p

/-- The play cursor leaves the segment under it (R68). It enters the next segment of the pass; or, past the last one
with passes remaining, the next pass with its repeat gap (R76); or it is ENDED, which a PLAYING announcement's engine
reports as completion (R77). A WAITING fetch cursor tries again in the same event (R64). -/
def Play.leave (p : Play) : Play :=
  let e := p.eng
  if e.play.seg + 1 < p.slot.segments.length then
    let q := p.withEng { e with play := { e.play with seg := e.play.seg + 1 }, progress := .fresh, clipPos := 0 }
    { q with bound := q.bound.retryFetch }.writePosition
  else if passesRemain p.slot.repeatCount e.play.pass then
    let inGap := p.slot.repeatGap != 0
    let q := p.withEng
      { e with
        play := { pass := satSucc255 e.play.pass, seg := 0, stage := if inGap then .repeatGap else .segment }
        progress := if inGap then .begun else .fresh
        framesRemaining := if inGap then 480 * p.slot.repeatGap else e.framesRemaining
        dec := if inGap then e.dec.enterGap else e.dec
        clipPos := 0
        fetch := { e.fetch with lap := .same } }
    { q with bound := q.bound.retryFetch }.writePosition
  else
    p.withEng { e with play := { e.play with stage := .ended }
                       completionDue := e.completionDue || p.slot.state == .playing }

/-- A faulted segment is counted while the fault count is below 2 (R75). The second fault halts the play cursor,
withdraws an ungranted request (R67), and aborts a PLAYING announcement or changes a STOPPING one's reason (R6). -/
def Play.countFault (p : Play) (kind : FaultKind) : Play :=
  if 2 ≤ p.slot.faultCount then p
  else
    let a := { p.slot with faultCount := p.slot.faultCount + 1 }
    let ev := EventRecord.segmentFault p.handle a.tag p.eng.play.seg kind p.eng.play.pass
    let q := { p.withSlot a with events := p.events ++ [ev] }
    if a.faultCount = 2 then
      let halted := { q.eng.withdrawUngranted with play := { q.eng.play with stage := .halted } }
      let abort : Stopping := { reason := .aborted, cancelPending := false, preemptor := none }
      match a.state, a.stop with
      | .playing, _ =>
        { (q.withEng { halted with state := .fading, fadePos := 0, fadePriming := false }).withSlot
            { a with state := .stopping, stop := some abort } with pass := true }
      | .stopping, some ⟨.preempted, _, _⟩ => (q.withEng halted).withSlot { a with stop := some abort }
      | _, _ => q.withEng halted
    else q

/-- The engine is RUNNING again and its underrun flag is clear; a FADING engine stays FADING (R78, R80). -/
def Play.resume (p : Play) : Play :=
  p.withEng { p.eng with state := if p.eng.state = .stalled then .running else p.eng.state, underrun := false }

/-- The bytes needed are not in the ring (R78): the engine becomes STALLED, or stays FADING (R80), and an episode
begins if the underrun flag was clear. -/
def Play.stall (p : Play) : Play :=
  let q := p.withEng { p.eng with state := if p.eng.state = .fading then .fading else .stalled, underrun := true }
  if p.eng.underrun then q
  else q.withSlot { p.slot with underruns := satSucc255 p.slot.underruns }

/-- A FORMAT fault (R74): the rest of the clip leaves the ring, a request for the clip is withdrawn or dropped, the
fetch cursor moves past the clip if it is still in it, and the fault is counted. -/
def Play.formatFault (p : Play) (clipLength : Nat) : Play :=
  let e := p.eng
  let removed := min e.ring.length (clipLength - e.clipPos)
  let inClip := e.fetch.lap == .same && e.fetch.seg == e.play.seg && e.fetch.phase == .data
  let request := if inClip then
      match e.request with
      | some r => if r.granted then some { r with dropped := true } else none
      | none => none
    else e.request
  let q := p.withEng { e with ring := e.ring.drop removed, request := request }
  let moved := if inClip then { q with bound := q.bound.walkFrom (e.fetch.seg + 1) } else q
  moved.countFault .format

/-- One frame of a GAP or repeat gap: the output is zero and frames remaining falls by 1 (R71, R76). -/
def Play.gapFrame (p : Play) : Play :=
  p.withEng { p.eng with framesRemaining := p.eng.framesRemaining - 1, progress := .begun }

/-- The GAP or repeat gap under the cursor has given its last frame (R71, R76). -/
def Engine.gapOver (e : Engine) : Bool :=
  e.progress == .done || (e.progress == .begun && e.framesRemaining == 0)

/-- A MARK is passed: while PLAYING its event is queued (R72). -/
def Play.passMark (p : Play) (value : Byte) : Play :=
  if p.slot.state = .playing then
    { p with events := p.events ++
        [EventRecord.mark p.handle p.slot.tag value p.eng.play.seg p.eng.play.pass] }
  else p

/-- What a CLIP segment whose fault mark is clear gives at this frame (R70). -/
inductive ClipFrame where
  /-- The frame's sample. -/
  | output (p : Play) (sample : Int)
  /-- The clip is over, and its last sample has given all its frames. -/
  | over (p : Play)
  /-- An SD4 block header is at fault (R90). -/
  | faulted (p : Play)
  deriving DecidableEq, Repr

/-- The play cursor enters a CLIP segment, faulted or not: the clip position is 0, and block position, block length and
nibble are set back (R70, R85). -/
def Play.enterClip (p : Play) : Play :=
  if p.eng.progress = .fresh then
    p.withEng { p.eng with progress := .begun, clipPos := 0, dec := p.eng.dec.enterClip }
  else p

/-- One frame of a CLIP segment whose fault mark is clear (R70, R97): the next phase of the run in progress, or the
first phase of the next decoded sample, or zero where its bytes are missing. The trim is the override or the entry's
default (R99). -/
def Play.clipFrame (p : Play) (entry : ClipEntry) (trim : Option Nat) : ClipFrame :=
  let e := p.eng
  let k := framesPerSample entry.rate
  let t := trim.getD entry.trim.toNat
  if e.dec.phase ≠ 0 ∧ e.dec.phase < k then
    let d := { e.dec with phase := e.dec.phase + 1 }
    .output (p.withEng { e with dec := d }) (trimmed (converted d.previous d.current d.phase k) t)
  else if e.dec.phase ≠ 0 ∧ e.clipPos = entry.length then .over (p.withEng { e with dec := e.dec.endRun })
  else
    match takeSample (codingOf entry.coding) e.dec.endRun e.ring (entry.length - e.clipPos) with
    | .missing => .output p.stall 0
    | .formatFault d => .faulted (p.withEng { e with dec := d }).resume
    | .sample s d removed =>
      let run := d.beginRun s
      .output (p.withEng { e with dec := run, ring := e.ring.drop removed, clipPos := e.clipPos + removed }).resume
        (trimmed (converted run.previous s 1 k) t)

/-- The play side goes through the boundaries, MARKs and faulted CLIPs that take no frame, until it stands where this
frame's output comes from, and gives that output (R68). `fuel` bounds the segments passed in one frame (log 21). -/
def playLoop (d : Directory) : Nat → Play → Play × Int
  | 0, p => (p, 0)
  | fuel + 1, p =>
    match p.eng.play.stage with
    | .ended => (p, 0)
    | .halted => (p, 0)
    | .repeatGap =>
      if p.eng.gapOver then
        playLoop d fuel
          (p.withEng { p.eng with play := { p.eng.play with stage := .segment }, progress := .fresh })
      else (p.gapFrame, 0)
    | .segment =>
      match p.slot.segments[p.eng.play.seg]? with
      | none => (p, 0)
      | some (.mark value) => playLoop d fuel (p.passMark value).leave
      | some (.gap ms) =>
        if p.eng.gapOver then playLoop d fuel p.leave
        else if p.eng.progress = .fresh then
          ((p.withEng { p.eng with framesRemaining := 48 * ms, dec := p.eng.dec.enterGap }).gapFrame, 0)
        else (p.gapFrame, 0)
      | some (.clip n trim fault) =>
        let entered := p.enterClip
        if fault then
          let q := entered.resume.countFault .headerMismatch
          if q.eng.play.stage = .halted then (q, 0) else playLoop d fuel q.leave
        else
          match entered.clipFrame (d.entry n) trim with
          | .output q sample => (q, sample)
          | .over q => playLoop d fuel q.leave
          | .faulted q =>
            let r := q.formatFault (d.entry n).length
            if r.eng.play.stage = .halted then (r, 0) else playLoop d fuel r.leave

/-- Fuel for one frame over a list of n segments. -/
def playFuel (n : Nat) : Nat := 4 * n + 8

/-- The play side does what RUNNING does at a frame. -/
def Play.run (d : Directory) (p : Play) : Play × Int := playLoop d (playFuel p.slot.segments.length) p

/-- The play cursor needs no bytes: it is at a GAP, at a MARK, or at a CLIP whose fault mark is set (R69). -/
def needsNoBytes (segments : List Segment) (k : Nat) : Bool :=
  match segments[k]? with
  | some (.clip _ _ fault) => fault
  | some (.gap _) => true
  | some (.mark _) => true
  | none => true

/-- The exit test of PRIMING (R69). -/
def Bound.primed (b : Bound) : Bool :=
  decide (256 ≤ b.eng.ring.length) || b.eng.fetch.phase == .done || b.eng.fetch.phase == .waiting
    || needsNoBytes b.slot.segments b.eng.play.seg

/-- The fade position rises by 1 at a frame of the fade; at 256 an ungranted request is withdrawn (R80, R144). -/
def Engine.advanceFade (e : Engine) : Engine :=
  let f := { e with fadePos := e.fadePos + 1 }
  if f.fadePos = 256 then f.withdrawUngranted else f

/-- One frame of a bound engine, by its state (R56, R69, R78, R80): what it leaves and the sample it produces. -/
def Play.frame (d : Directory) (p : Play) : Play × Int :=
  match p.eng.state with
  | .idle => (p, 0)
  | .priming => if p.bound.primed then (p.withEng { p.eng with state := .running }).run d else (p, 0)
  | .running => p.run d
  | .stalled => p.run d
  | .fading =>
    if 256 ≤ p.eng.fadePos then (p, 0)
    else if p.eng.fadePriming && !p.bound.primed then (p.withEng p.eng.advanceFade, 0)
    else
      let out := (p.withEng { p.eng with fadePriming := false }).run d
      (out.1.withEng out.1.eng.advanceFade, faded out.2 p.eng.fadePos)

/-- What an engine gives at a frame: its record, its announcement's slot and record (for a bound engine), the sample,
the records to offer, and whether a pass is requested. -/
structure FrameOut where
  eng : Engine
  slot : Option (SlotId × Slot)
  sample : Int
  events : List EventRecord
  pass : Bool
  deriving DecidableEq, Repr

/-- One frame of engine e (R56); R61 is evaluated after the play side has moved. -/
def State.engineFrame (s : State) (e : EngineId) : FrameOut :=
  match s.engines[e].binding with
  | none => { eng := s.engines[e], slot := none, sample := 0, events := [], pass := false }
  | some h =>
    let i := handleSlot h
    let out := Play.frame s.dir
      { bound := { eng := s.engines[e], slot := s.slots[i] }, handle := h, events := [], pass := false }
    let b := out.1.bound.considerRequest s.dir
    { eng := b.eng, slot := some (i, b.slot), sample := out.2, events := out.1.events, pass := out.1.pass }

end Sys2Proof.Machine
end

