-- ==== Sys2Proof/Machine/Engines.lean ====
section
/-! DEFINITION. The frame and the engines' steps (chapter 3): FRAME, ENGINE_FADE_DONE, GAP_END, REPEAT_GAP_END and
ENGINE_BURST_ARRIVAL. -/

namespace Sys2Proof.Machine

/-! ### FRAME -/

/-- Both counters advance; a counter that returns to 0 makes a tick or a slew step fall (R1, log 10). -/
def FrameClock.advance (c : FrameClock) : FrameClock :=
  let tick := if c.tick < 47 then c.tick + 1 else 0
  let slew := if c.slew < 7 then c.slew + 1 else 0
  { tick := tick, slew := slew
    ticksDue := if tick = 0 then c.ticksDue + 1 else c.ticksDue
    slewsDue := if slew = 0 then c.slewsDue + 1 else c.slewsDue }

/-- What each engine gives at this frame. -/
def State.engineFrames (s : State) : Vector FrameOut 4 := Vector.ofFn fun e : EngineId => s.engineFrame e

/-- The record that engine e's frame leaves for its announcement is stored; an unbound engine leaves none. -/
def storeSlot (outs : Vector FrameOut 4) (slots : Vector Slot 16) (e : EngineId) : Vector Slot 16 :=
  match outs[e].slot with
  | some (i, a) => slots.set i a
  | none => slots

/-- The announcement records after the engines' frames. -/
def slotsAfter (slots : Vector Slot 16) (outs : Vector FrameOut 4) : Vector Slot 16 :=
  allEngines.foldl (storeSlot outs) slots

/-- The sample handed to a zone that has an owner: that of the engine bound to the owner (R82, R126). -/
def State.zoneSample (s : State) (outs : Vector FrameOut 4) (z : Zone) : Option Int :=
  match s.zones[z].owner with
  | none => none
  | some h =>
    match allEngines.find? fun e => s.engines[e].binding == some h with
    | some e => some outs[e].sample
    | none => some 0

/-- One frame of the part (R1): the engines form their samples, each zone takes its owner's, applies its volume and
bias, and drives its DAC (R130); then the engines' records are offered (R164). A ZONE record of a ramp that ends at this
frame is offered behind them, by BIAS_READY or BIAS_OFF, where R164 leaves the order open (DESIGN CHOICE, log 11). The
frame counts toward the time within which a command that ended at its latch may have ended (R176, log 4). -/
def State.takeFrame (s : State) : State :=
  let outs := s.engineFrames
  let t := { s with
    clock := s.clock.advance
    engines := Vector.ofFn fun e : EngineId => outs[e].eng
    slots := slotsAfter s.slots outs
    passPending := s.passPending || allEngines.any fun e => outs[e].pass
    stages := Vector.ofFn fun z : Zone => s.stages[z].frame (s.zoneSample outs z)
    mailbox := { s.mailbox with foldedEnd := s.mailbox.foldedEnd - 1 } }
  t.offerFrom (allEngines.map fun e => outs[e].events)

/-! ### The engines' own events -/

/-- An engine whose fade position has reached 256 stops its fetch side and reports the end of its fade (R81). -/
def Engine.fadeDone (e : Engine) : Engine :=
  if e.state = .fading ∧ 256 ≤ e.fadePos then { e.withdrawUngranted with fadeEndDue := true } else e

/-- The play cursor stands at a GAP segment of its announcement. -/
def State.atGap (s : State) (e : EngineId) : Bool :=
  match s.engines[e].binding with
  | none => false
  | some h =>
    match s.slots[handleSlot h].segments[s.engines[e].play.seg]? with
    | some (.gap _) => s.engines[e].play.stage == .segment
    | _ => false

/-- A gap whose frames remaining have reached 0 is over, so that the play cursor leaves it at the next frame
(R71, R76). -/
def Engine.endGap (e : Engine) : Engine :=
  if e.progress = .begun ∧ e.framesRemaining = 0 then { e with progress := .done } else e

/-- The end of a GAP (R71). -/
def State.takeGapEnd (s : State) (e : EngineId) : State :=
  if s.atGap e then s.setEngine e s.engines[e].endGap else s

/-- The end of a repeat gap (R76). -/
def State.takeRepeatGapEnd (s : State) (e : EngineId) : State :=
  if s.engines[e].binding.isSome && s.engines[e].play.stage == .repeatGap then s.setEngine e s.engines[e].endGap
  else s

/-! ### The arrival of an engine burst -/

/-- An engine burst's data reaches engine e with a token (R59, R66): discarded where the token's epoch differs. -/
def State.takeEngineData (s : State) (e : EngineId) (epoch : BitVec 8) (data : List Byte) : State :=
  if s.engines[e].epoch ≠ epoch then s
  else
    match s.engines[e].binding with
    | none => s
    | some h =>
      let i := handleSlot h
      let b := ({ eng := s.engines[e], slot := s.slots[i] } : Bound).takeArrival s.dir data
      (s.setEngine e b.eng).setSlot i b.slot

/-- The data of an engine's burst is taken, at the end of the burst or after it (R142, R66). Data of another length, or a burst that is not an
engine's, is no arrival (log 7). -/
def State.takeEngineArrival (s : State) (data : List Byte) : State :=
  match s.port.arrival with
  | some b =>
    match b.requester with
    | .engine e epoch =>
      if b.received.length + data.length = b.count then
        (s.setPort s.port.arrived).takeEngineData e epoch (b.received ++ data)
      else s
    | .loader _ => s
  | none => s

/-! ### The rows -/

/-- FRAME (R1). -/
def execFrame (s : State) : Host.Outcome State Fault Refusal := .next (s.whenRunning State.takeFrame)

/-- ENGINE_FADE_DONE (R81). -/
def execEngineFadeDone (e : EngineId) (s : State) : Host.Outcome State Fault Refusal :=
  .next (s.whenRunning fun t => t.setEngine e t.engines[e].fadeDone)

/-- GAP_END (R71). -/
def execGapEnd (e : EngineId) (s : State) : Host.Outcome State Fault Refusal :=
  .next (s.whenRunning fun t => t.takeGapEnd e)

/-- REPEAT_GAP_END (R76). -/
def execRepeatGapEnd (e : EngineId) (s : State) : Host.Outcome State Fault Refusal :=
  .next (s.whenRunning fun t => t.takeRepeatGapEnd e)

/-- ENGINE_BURST_ARRIVAL (R66). -/
def execEngineBurstArrival (data : List Byte) (s : State) : Host.Outcome State Fault Refusal :=
  .next (s.whenRunning fun t => t.takeEngineArrival data)

end Sys2Proof.Machine
end

