-- ==== Sys2Proof/Machine/Queue.lean ====
section
/-! DEFINITION. The host's writes to the event queue (chapter 8): EVPOP, EVMSK_WRITE and IRQC_WRITE. -/

namespace Sys2Proof.Machine

/-- A write to a mask register replaces the enables it holds; its other bits ignore what is written (R161, R183). -/
def EventQueue.writeMask (q : EventQueue) (reg : MaskReg) (value : Byte) : EventQueue :=
  match reg with
  | .evmsk0 => { q with mask0 := value.setWidth 5 }
  | .evmsk1 => { q with mask1 := value.setWidth 3 }

/-- A write to IRQC sets or clears the IRQ enable (R167, R183). -/
def EventQueue.writeIrqc (q : EventQueue) (value : Byte) : EventQueue := { q with irqEnable := value.getLsbD 0 }

/-- The addresses of EVMSK0 and EVMSK1 (11.2). -/
def maskAddr : MaskReg → RegAddr
  | .evmsk0 => 0x21#6
  | .evmsk1 => 0x22#6

/-- EVPOP (R166, R172): a write of any value is a pop. -/
def execEvpop (_value : Byte) (s : State) : Host.Outcome State Fault Refusal :=
  .next (s.hostWrite 0x2A#6 fun t => t.setEvents t.events.pop)

/-- EVMSK_WRITE (R161, R172). -/
def execEvmskWrite (reg : MaskReg) (value : Byte) (s : State) : Host.Outcome State Fault Refusal :=
  .next (s.hostWrite (maskAddr reg) fun t => t.setEvents (t.events.writeMask reg value))

/-- IRQC_WRITE (R167, R172). -/
def execIrqcWrite (value : Byte) (s : State) : Host.Outcome State Fault Refusal :=
  .next (s.hostWrite 0x20#6 fun t => t.setEvents (t.events.writeIrqc value))

end Sys2Proof.Machine
end

