-- ==== Sys2Proof/Machine/Reset.lean ====
section
/-! DEFINITION. The resets: SOFT_RESET (R180 and each chapter's values), POWER_ON_RESET, PIN_RESET and
RESETN_HELD_LOW. -/

namespace Sys2Proof.Machine

/-! ### SOFT_RESET -/

/-- The zone stage's part of a soft reset (R139); `owned` is whether the zone had an owner. -/
def Stage.softReset (g : Stage) (owned : Bool) : Stage :=
  if owned then g.startFade .softReset
  else
    match g.fade with
    | some f => { g with fade := some { f with cause := .softReset }, idleTimer := none }
    | none => g.rampDownNow

/-- The directory's part of a soft reset (R120): a load is abandoned, anything else is kept. -/
def Directory.softReset (d : Directory) : Directory :=
  if d.state = .loading then { d with state := .empty, entries := [], invalid := 0, progress := none } else d

/-- The port's part of a soft reset (R158). -/
def Port.softReset (p : Port) : Port :=
  match p.claim with
  | .none => p
  | .waiting _ => { p with claim := .none }
  | .held mode hold _ =>
    if p.ptByte.isNone then p.endClaim else { p with claim := .held mode hold (some .reset) }

/-- Every announcement is freed (R31), together with the unbinding of its engine (R84). -/
def State.softFree (s : State) : State :=
  let freed := allSlots.foldl State.freeSlotInReset s
  { freed with engines := Vector.ofFn fun e : EngineId => s.engines[e].unbind }

/-- The scheduler's part (R54): no owner, no claimant, no pass. -/
def State.softSchedule (s : State) : State :=
  { s with zones := Vector.replicate 4 { owner := none, claimant := none }, passPending := false }

/-- The zone stages' part, each knowing whether its zone had an owner in state `before` (R139). -/
def State.softStages (s before : State) : State :=
  { s with stages := Vector.ofFn fun z : Zone => s.stages[z].softReset before.zones[z].owner.isSome }

/-- The event queue's part (R169): RESET_DONE (SOFT) alone. -/
def EventQueue.softReset (q : EventQueue) : EventQueue := { q with records := [EventRecord.resetDone 3#8] }

/-- A soft reset of every block, in the order of R180. -/
def State.softReset (s : State) : State :=
  let t := s.softFree.softSchedule.softStages s
  { t with dir := t.dir.softReset, port := t.port.softReset, events := t.events.softReset }

/-- SOFT_RESET at every block (R180). -/
def softResetBody : Body := fun _ s => (s.softReset, some (Reply.plain .ok))

/-! ### POR and pin reset -/

/-- Every block at its reset values (R30, R54, R83, R119, R138, R157, R168, R182), with RESET_DONE of the given kind
alone in the queue. The pins HCS and RESETn keep their levels, no host frame is taken (R174), the waiting commands
wait on, and the count of free choices goes on (log 8). Where HCS is low, HSDO floats until the next fall of HCS begins a
frame: the spec says that it floats while RESETn is low, and not what it carries from then on (DESIGN CHOICE, log 9). -/
def State.hardReset (s : State) (resetKind : Byte) : State :=
  { State.reset with
    pending := s.pending, events := EventQueue.reset resetKind
    host := { hcsLow := s.host.hcsLow, frame := none, hsdo := none }
    resetnLow := s.resetnLow, choices := s.choices }

/-- RESETn is low (R174, R168, log 9): every block is held at its reset values and the queue has no record yet. -/
def State.holdReset (s : State) : State :=
  let t := s.hardReset 2#8
  { t with resetnLow := true, events := { t.events with records := [] } }

/-! ### The rows -/

/-- SOFT_RESET (R180, R176). -/
def execSoftReset (s : State) : Host.Outcome State Fault Refusal := .next (s.hostCommand 0x5A#8 softResetBody)

/-- POWER_ON_RESET (R168). -/
def execPowerOnReset (s : State) : Host.Outcome State Fault Refusal := .next (s.hardReset 1#8)

/-- PIN_RESET (R168): RESETn is released. -/
def execPinReset (s : State) : Host.Outcome State Fault Refusal :=
  .next { s.hardReset 2#8 with resetnLow := false }

/-- RESETN_HELD_LOW (R174). -/
def execResetnHeldLow (s : State) : Host.Outcome State Fault Refusal := .next s.holdReset

end Sys2Proof.Machine
end

