-- ==== Sys2Proof/Machine/HostPort.lean ====
section
/-! DEFINITION. The host port and the mailbox's own rows (chapter 9): HCS_FALL, ADDRESS_BYTE, HCS_RISE,
REGISTER_WRITE, BAD_COMMAND and CMD_WRITE_DISCARDED. -/

namespace Sys2Proof.Machine

/-! ### Frames -/

/-- HCS falls (R170): a frame begins, the bit count starts, and STAT as it stands is driven on HSDO. While RESETn is
low the frame is not taken (R174). A fall needs HCS high (log 1). -/
def State.fallHcs (s : State) : State :=
  if s.host.hcsLow then s
  else if s.resetnLow then s.setHost { hcsLow := true, frame := none, hsdo := none }
  else s.setHost { hcsLow := true, frame := some { bits := 0, address := none }, hsdo := some s.stat }

/-- The fields of an address byte: bit 7 read, bit 6 auto-increment, bits 5 to 0 the address (R170). -/
def frameAddressOf (b : Byte) : FrameAddress :=
  { read := b.getLsbD 7, autoInc := b.getLsbD 6, addr := b.setWidth 6 }

/-- The address byte of the frame being taken is complete (R170). From then on HSDO carries the addressed register in
a read frame (R171) and 00h in a write frame (R172). -/
def State.takeAddress (s : State) (b : Byte) : State :=
  match s.host.frame with
  | some f =>
    match f.address with
    | none =>
      let fa := frameAddressOf b
      s.setHost { s.host with
        frame := some { bits := f.bits + 8, address := some fa }
        hsdo := some (if fa.read then s.readRegister fa.addr else 0#8) }
    | some _ => s
  | none => s

/-- HCS rises (R170, R174): the frame ends at whatever point it has reached, the bits of an incomplete byte are gone,
and HSDO floats. -/
def State.riseHcs (s : State) : State := s.setHost { hcsLow := false, frame := none, hsdo := none }

/-! ### Commands without an owner -/

/-- A code that names no command: BAD_COMMAND, and no block acts (R179). -/
def badCommandBody : Body := fun _ s => (s, some (Reply.plain .badCommand))

/-- The eleven commands by their codes (9.4, 11.3). -/
def commandTable : List (Byte × Body) :=
  [ (0x10#8, annOpenBody), (0x11#8, annAppendBody), (0x12#8, annSubmitBody), (0x13#8, annCancelBody)
  , (0x14#8, annStatusBody), (0x20#8, zoneSetBody), (0x30#8, dirLoadBody), (0x40#8, flashConfigBody)
  , (0x41#8, flashClaimBody), (0x42#8, flashReleaseBody), (0x5A#8, softResetBody) ]

/-- A code names a command of 9.4. -/
def namesCommand (code : Byte) : Bool := commandTable.any fun row => row.1 == code

/-- The body a command code names, or that of R179. -/
def bodyOfCode (code : Byte) : Body := (commandTable.lookup code).getD badCommandBody

/-! ### Registers -/

/-- The parameter register at an address: P0 stands at 02h and P7 at 09h (11.2). -/
def paramIndex (a : RegAddr) : Option (Fin 8) :=
  if h : a.toNat - 2 < 8 then (if 2 ≤ a.toNat then some ⟨a.toNat - 2, h⟩ else none) else none

/-- A data byte written to a register takes effect at its owning block (R172); a write to a read-only or reserved
address is ignored. -/
def State.writeRegister (s : State) (a : RegAddr) (v : Byte) : State :=
  match paramIndex a with
  | some k => s.setMailbox { s.mailbox with p := s.mailbox.p.set k v }
  | none =>
    if a = cmdAddr then s.cmdWrite v (bodyOfCode v)
    else if a = 0x20#6 then s.setEvents (s.events.writeIrqc v)
    else if a = 0x21#6 then s.setEvents (s.events.writeMask .evmsk0 v)
    else if a = 0x22#6 then s.setEvents (s.events.writeMask .evmsk1 v)
    else if a = 0x2A#6 then s.setEvents s.events.pop
    else if a = 0x30#6 then s.setPort (s.port.writePtctl v)
    else if a = 0x31#6 then s.setPort (s.port.writePtdat v)
    else s

/-! ### The rows -/

/-- REGISTER_WRITE (R172, R173, R175). -/
def execRegisterWrite (a : RegAddr) (v : Byte) (s : State) : Host.Outcome State Fault Refusal :=
  .next (s.hostWrite a fun t => t.writeRegister a v)

/-- BAD_COMMAND (R179, R176): a code that does name a command is not this row's (log 1). -/
def execBadCommand (code : Byte) (s : State) : Host.Outcome State Fault Refusal :=
  .next (if namesCommand code then s else s.hostCommand code badCommandBody)

/-- CMD_WRITE_DISCARDED (R177): a CMD write that is taken while a command executes, or that fell between the latch and
the end of the last command, which are one step here (R176, log 4). At any other time no CMD write is discarded (log 1). -/
def execCmdWriteDiscarded (_code : Byte) (s : State) : Host.Outcome State Fault Refusal :=
  .next (if s.mailbox.executing || s.mailbox.foldedEnd != 0 then s.hostWrite cmdAddr State.discardCommand else s)

/-- HCS_FALL (R170). -/
def execHcsFall (s : State) : Host.Outcome State Fault Refusal := .next s.fallHcs

/-- ADDRESS_BYTE (R170). -/
def execAddressByte (b : Byte) (s : State) : Host.Outcome State Fault Refusal :=
  .next (s.whenRunning fun t => t.takeAddress b)

/-- HCS_RISE (R170, R174). -/
def execHcsRise (s : State) : Host.Outcome State Fault Refusal := .next s.riseHcs

end Sys2Proof.Machine
end

