-- ==== Sys2Proof/Machine/Scheduler.lean ====
section
/-! DEFINITION. The Zone Scheduler's steps (chapter 2): SCHEDULING_PASS, START, DEADLINE_EXPIRY, FADE_END and
COMPLETION. -/

namespace Sys2Proof.Machine

/-! ### The pass -/

/-- A pass at work: the state, the zones reserved so far (R35), and the ZONE records the stages have to offer. -/
structure Pass where
  state : State
  reserved : ZoneSet
  ready : List (Zone × EventRecord)
  deriving DecidableEq, Repr

/-- The candidates in order: priority 7 first, and the submission order within a priority (R35). -/
def State.candidates (s : State) : List SlotId :=
  [7, 6, 5, 4, 3, 2, 1, 0].flatMap fun priority =>
    s.order.filter fun i => s.slots[i].state.candidate && s.slots[i].priority == priority

/-- The effective mask of a candidate: its zone mask within the enabled zones (R35). -/
def State.effectiveMask (s : State) (i : SlotId) : ZoneSet := s.slots[i].zoneMask &&& s.enabledZones

/-- Zone z, unreserved, may be taken by a candidate of this priority (R36). -/
def State.ownerYields (s : State) (z : Zone) (priority : Nat) : Bool :=
  match s.zones[z].owner with
  | none => true
  | some h =>
    match s.slots[handleSlot h].state with
    | .playing => decide (s.slots[handleSlot h].priority < priority)
    | .stopping => true
    | .free => false
    | .building => false
    | .queued => false
    | .granted => false

/-- Zone z is takeable for candidate i (R36). -/
def Pass.takeable (p : Pass) (i : SlotId) (z : Zone) : Bool :=
  !inZones p.reserved z && p.state.ownerYields z p.state.slots[i].priority

/-- Zone z gets the candidate as claimant, and its stage is told where the field changes (R37, R32, R124). -/
def Pass.claimZone (p : Pass) (h : Handle) (z : Zone) : Pass :=
  if p.state.zones[z].claimant = some h then p
  else
    let t := p.state.setZone z { p.state.zones[z] with claimant := some h }
    { p with
      state := t.setStage z t.stages[z].claimantArrives
      ready := p.ready ++ (t.stages[z].arrivalEvents z).map fun r => (z, r) }

/-- A PLAYING owner of zone z is preempted by the announcement with handle h (R38). -/
def State.preemptOwner (s : State) (h : Handle) (z : Zone) : State :=
  match s.zones[z].owner with
  | none => s
  | some v =>
    if s.slots[handleSlot v].state = .playing then
      s.enterStopping (handleSlot v) { reason := .preempted, cancelPending := false, preemptor := some h }
    else s

/-- A GRANTED announcement other than i with a claim on one of the zones is displaced (R37, R39). -/
def State.displace (s : State) (i : SlotId) (zs : ZoneSet) (j : SlotId) : State :=
  if j ≠ i ∧ s.slots[j].state = .granted ∧ s.slots[j].effZones &&& zs ≠ 0#4 then s.claimLoss j else s

/-- The zones of a set, in order of their numbers. -/
def zonesOf (zs : ZoneSet) : List Zone := allZones.filter fun z => inZones zs z

/-- Candidate i is granted its effective mask (R37). -/
def Pass.grant (p : Pass) (i : SlotId) (zs : ZoneSet) : Pass :=
  let h := p.state.handleAt i
  let t := p.state.setSlot i { p.state.slots[i] with state := .granted, effZones := zs }
  let claimed := (zonesOf zs).foldl (fun q z => q.claimZone h z) { p with state := t, reserved := p.reserved ||| zs }
  let preempted := (zonesOf zs).foldl (fun u z => u.preemptOwner h z) claimed.state
  { claimed with state := allSlots.foldl (fun u j => u.displace i zs j) preempted }

/-- A GRANTED candidate that is not granted again loses its claims (R35, R40). -/
def State.loseIfGranted (s : State) (i : SlotId) : State :=
  if s.slots[i].state = .granted then s.claimLoss i else s

/-- Candidate i is visited (R35, R37, R40). -/
def Pass.visit (p : Pass) (i : SlotId) : Pass :=
  let zs := p.state.effectiveMask i
  if zs = 0#4 then { p with state := p.state.loseIfGranted i }
  else if (zonesOf zs).all fun z => p.takeable i z then p.grant i zs
  else { p with state := p.state.loseIfGranted i, reserved := p.reserved ||| zs }

/-- A pending pass is taken (R34, R35). When it has finished, the start of every announcement it granted is checked
(R41, log 16), and the stages' ZONE records are offered (R164). -/
def State.takePass (s : State) : State :=
  if s.passPending then
    let begun : Pass := { state := { s with passPending := false }, reserved := 0#4, ready := [] }
    let done := s.candidates.foldl Pass.visit begun
    let checked := allSlots.foldl State.startCheck done.state
    checked.offerFrom (allZones.map fun z => (done.ready.filter fun r => r.1 == z).map Prod.snd)
  else s

/-! ### The start -/

/-- The lowest-numbered engine that is not bound (R42, R57). -/
def State.freeEngine (s : State) : Option EngineId := allEngines.find? fun e => s.engines[e].binding.isNone

/-- Zone z of a starting announcement gets it as owner; its claimant is removed, and a running idle timer stops
(R42, R124). -/
def State.takeZone (s : State) (h : Handle) (z : Zone) : State :=
  (s.setZone z { owner := some h, claimant := none }).setStage z { s.stages[z] with idleTimer := none }

/-- The start of announcement i on engine e (R42, R57). -/
def State.startOn (s : State) (i : SlotId) (e : EngineId) : State :=
  let h := s.handleAt i
  let a := s.slots[i]
  let b := bindEngine s.dir s.engines[e] a h
  let bound := (s.setEngine e b.eng).setSlot i
    { b.slot with state := .playing, engine := some e, deadline := none, resume := none, startDue := false }
  let owned := (zonesOf a.effZones).foldl (fun u z => u.takeZone h z) bound
  owned.offer (EventRecord.started h a.tag a.effZones a.playPos)

/-- A due start is taken: it starts the announcement, or is dropped where the condition no longer holds (R41, R42).
An unbound engine is always found (R42); without one the start is dropped too (log 25). -/
def State.takeStart (s : State) (i : SlotId) : State :=
  if s.slots[i].startDue then
    let dropped := s.setSlot i { s.slots[i] with startDue := false }
    if s.readyToStart i then
      match s.freeEngine with
      | some e => s.startOn i e
      | none => dropped
    else dropped
  else s

/-! ### Expiry, fade end, completion -/

/-- A deadline that has reached 0 expires (R44): the claims are withdrawn, the slot is freed EXPIRED, and a pass is
requested. -/
def State.takeExpiry (s : State) (i : SlotId) : State :=
  if s.slots[i].state.candidate && s.slots[i].deadline == some 0 then
    ((s.withdrawClaims (s.handleAt i)).freeSlot i .expired).requestPass
  else s

/-- The announcement bound to engine e, where the engine has a report for the scheduler. -/
def State.reporter (s : State) (e : EngineId) (due : Bool) : Option SlotId :=
  match s.engines[e].binding, due with
  | some h, true => some (handleSlot h)
  | _, _ => none

/-- A fade end reported by engine e is taken (R47, R81). A report for an announcement that is not STOPPING is dropped. -/
def State.takeFadeEnd (s : State) (e : EngineId) : State :=
  match s.reporter e s.engines[e].fadeEndDue with
  | none => s
  | some i =>
    if s.slots[i].state = .stopping ∧ s.slots[i].engine = some e then s.endFade i
    else s.setEngine e { s.engines[e] with fadeEndDue := false }

/-- A completion reported by engine e is taken (R50, R77). A report for an announcement that is not PLAYING is
dropped. -/
def State.takeCompletion (s : State) (e : EngineId) : State :=
  match s.reporter e s.engines[e].completionDue with
  | none => s
  | some i =>
    if s.slots[i].state = .playing ∧ s.slots[i].engine = some e then
      ((s.giveUp i).freeSlot i .completed).requestPass
    else s.setEngine e { s.engines[e] with completionDue := false }

/-! ### The rows -/

/-- SCHEDULING_PASS (R34 to R40). Without a pending pass there is nothing to take (log 1). -/
def execSchedulingPass (s : State) : Host.Outcome State Fault Refusal := .next (s.whenRunning State.takePass)

/-- START (R41, R42). -/
def execStart (i : SlotId) (s : State) : Host.Outcome State Fault Refusal :=
  .next (s.whenRunning fun t => t.takeStart i)

/-- DEADLINE_EXPIRY (R44). -/
def execDeadlineExpiry (i : SlotId) (s : State) : Host.Outcome State Fault Refusal :=
  .next (s.whenRunning fun t => t.takeExpiry i)

/-- FADE_END (R47 to R49). -/
def execFadeEnd (e : EngineId) (s : State) : Host.Outcome State Fault Refusal :=
  .next (s.whenRunning fun t => t.takeFadeEnd e)

/-- COMPLETION (R50). -/
def execCompletion (e : EngineId) (s : State) : Host.Outcome State Fault Refusal :=
  .next (s.whenRunning fun t => t.takeCompletion e)

end Sys2Proof.Machine
end

