-- ==== Sys2Proof/Machine/Dispatch.lean ====
section
/-! DEFINITION. The dispatch: one arm for each row of spec/opcode_table.json. -/

namespace Sys2Proof.Machine

/-- The effect of a command on everything but the queue of waiting commands. -/
def exec (i : Instr) (s : State) : Host.Outcome State Fault Refusal :=
  match i with
  | .annOpen => Sys2Proof.Machine.execAnnOpen s
  | .annAppend => Sys2Proof.Machine.execAnnAppend s
  | .annSubmit => Sys2Proof.Machine.execAnnSubmit s
  | .annCancel => Sys2Proof.Machine.execAnnCancel s
  | .annStatus => Sys2Proof.Machine.execAnnStatus s
  | .zoneSet => Sys2Proof.Machine.execZoneSet s
  | .dirLoad => Sys2Proof.Machine.execDirLoad s
  | .flashConfig => Sys2Proof.Machine.execFlashConfig s
  | .flashClaim => Sys2Proof.Machine.execFlashClaim s
  | .flashRelease => Sys2Proof.Machine.execFlashRelease s
  | .softReset => Sys2Proof.Machine.execSoftReset s
  | .badCommand code => Sys2Proof.Machine.execBadCommand code s
  | .cmdWriteDiscarded code => Sys2Proof.Machine.execCmdWriteDiscarded code s
  | .registerWrite addr value => Sys2Proof.Machine.execRegisterWrite addr value s
  | .evpop value => Sys2Proof.Machine.execEvpop value s
  | .evmskWrite reg value => Sys2Proof.Machine.execEvmskWrite reg value s
  | .irqcWrite value => Sys2Proof.Machine.execIrqcWrite value s
  | .ptctlWrite value => Sys2Proof.Machine.execPtctlWrite value s
  | .ptdatWrite value => Sys2Proof.Machine.execPtdatWrite value s
  | .ptByteEnd received => Sys2Proof.Machine.execPtByteEnd received s
  | .powerOnReset => Sys2Proof.Machine.execPowerOnReset s
  | .pinReset => Sys2Proof.Machine.execPinReset s
  | .frame => Sys2Proof.Machine.execFrame s
  | .tick => Sys2Proof.Machine.execTick s
  | .volumeSlewStep => Sys2Proof.Machine.execVolumeSlewStep s
  | .deadlineExpiry slot => Sys2Proof.Machine.execDeadlineExpiry slot s
  | .idleTimerExpiry zone => Sys2Proof.Machine.execIdleTimerExpiry zone s
  | .holdExpiry => Sys2Proof.Machine.execHoldExpiry s
  | .schedulingPass => Sys2Proof.Machine.execSchedulingPass s
  | .start slot => Sys2Proof.Machine.execStart slot s
  | .engineFadeDone engine => Sys2Proof.Machine.execEngineFadeDone engine s
  | .fadeEnd engine => Sys2Proof.Machine.execFadeEnd engine s
  | .completion engine => Sys2Proof.Machine.execCompletion engine s
  | .zoneFadeEnd zone => Sys2Proof.Machine.execZoneFadeEnd zone s
  | .biasReady zone => Sys2Proof.Machine.execBiasReady zone s
  | .biasOff zone => Sys2Proof.Machine.execBiasOff zone s
  | .gapEnd engine => Sys2Proof.Machine.execGapEnd engine s
  | .repeatGapEnd engine => Sys2Proof.Machine.execRepeatGapEnd engine s
  | .portGrant => Sys2Proof.Machine.execPortGrant s
  | .engineBurstArrival data => Sys2Proof.Machine.execEngineBurstArrival data s
  | .loaderBurstArrival data => Sys2Proof.Machine.execLoaderBurstArrival data s
  | .resetnHeldLow => Sys2Proof.Machine.execResetnHeldLow s
  | .hcsFall => Sys2Proof.Machine.execHcsFall s
  | .addressByte byte => Sys2Proof.Machine.execAddressByte byte s
  | .hcsRise => Sys2Proof.Machine.execHcsRise s

end Sys2Proof.Machine
end

