-- ==== Sys2Proof/Safety.lean ====
section
/-! DEFINITION. The laws of the part: what the spec says holds at every step (its "Law" sentences), each as a
predicate of the state, and the terms that the claims are stated in. -/

namespace Sys2Proof.Machine

/-! ### The terms of the claims -/

/-- A data byte written to address a reaches its register: RESETn is high, and the byte is one of an open write frame
at a, or a frame of its own (R172, log 3). -/
abbrev State.takesWrite (s : State) (a : RegAddr) : Prop := s.resetnLow = false ∧ s.host.carries a = true

/-- A CMD write reaches an IDLE mailbox, so that it latches a command (R176). -/
abbrev State.takesCommand (s : State) : Prop := s.takesWrite 0x0A#6 ∧ s.mailbox.executing = false

/-- The state with a command latched from P0 to P7 and ended with a result and four result bytes, all in this step
(log 4), the host's frame going on (R173, R176). Nothing else differs from s. -/
def State.answered (s : State) (code : Byte) (result : ResultCode) (q : ResultBytes) : State :=
  { s with
    mailbox := { s.mailbox with executing := false, latched := s.mailbox.p, code := code, result := result, q := q
                                overrun := false, foldedEnd := 2 }
    host := s.host.advance }

/-- The state with the host's frame one data byte further and nothing else changed (R173). -/
def State.byteDone (s : State) : State := { s with host := s.host.advance }

/-- A handle names the announcement in slot i: the slot is not FREE and the generations agree (R3, R4). -/
abbrev State.names (s : State) (h : Handle) (i : SlotId) : Prop :=
  s.slots[i].state ≠ .free ∧ h = handleOf s.slots[i].generation i

/-- P1 to P4 of ANN_APPEND describe this segment (R20, R184, 11.3). -/
def spellsSegment (p : Params) : Segment → Prop
  | .clip n trim fault =>
      p[1] = 1#8 ∧ n = p[2].toNat + 256 * p[3].toNat ∧ n ≤ 511 ∧ fault = false
        ∧ ((p[4].toNat ≤ 31 ∧ trim = some p[4].toNat) ∨ (p[4] = 0xFF#8 ∧ trim = Option.none))
  | .gap ms => p[1] = 2#8 ∧ ms = p[2].toNat + 256 * p[3].toNat ∧ 1 ≤ ms ∧ ms ≤ 4095
  | .mark value => p[1] = 3#8 ∧ value = p[2]

/-- Clip n has an entry in the table, judged valid (R117). -/
def Directory.accepts (d : Directory) (n : Nat) : Prop := ∃ entry ∈ d.entries[n]?, entry.valid = true

/-- The engine has a request that waits at the arbiter (R144). -/
abbrev Engine.waits (e : Engine) : Prop := ∃ r ∈ e.request, r.granted = false

/-- How many engines stand before e in the arbiter's turn, from the engine after the round-robin pointer on (R145). -/
def Port.turn (p : Port) (e : EngineId) : Nat := (e.val + 3 - p.pointer.val) % 4

/-- The stage of zone z after steps 1 and 2 of an accepted ZONE_SET (R136): the volume target, and a changed idle hold,
which restarts the timer of an idle zone. -/
def State.stageSet (s : State) (z : Zone) (volume hold : Nat) : Stage :=
  if hold = s.stages[z].idleHold then { s.stages[z] with volumeTarget := volume }
  else if s.zoneIdle z then
    { s.stages[z] with
      volumeTarget := volume, idleHold := hold
      bias := if hold = 0 then .rampDown else s.stages[z].bias
      idleTimer := if hold = 0 ∨ hold = 255 then Option.none else some (10 * hold) }
  else { s.stages[z] with volumeTarget := volume, idleHold := hold }

/-- The announcement that claims zone z, if there is one, is GRANTED under the handle the zone names (R32). -/
abbrev State.claimantGranted (s : State) (z : Zone) : Prop :=
  ∀ h ∈ s.zones[z].claimant, s.handleAt (handleSlot h) = h ∧ s.slots[handleSlot h].state = .granted

/-- The record of an announcement once it has lost its claims; only a GRANTED one has any (R39). -/
def Slot.withoutClaims (a : Slot) : Slot :=
  if a.state = .granted then { a with state := .queued, effZones := 0#4, startDue := false } else a

/-- The record of zone w once the announcement that claims zone z has lost its claims (R39, R52). -/
def State.zoneUnclaimed (s : State) (z w : Zone) : ZoneRec :=
  if s.zones[z].claimant ≠ none ∧ s.zones[w].claimant = s.zones[z].claimant then
    { owner := s.zones[w].owner, claimant := none }
  else s.zones[w]

/-- The stage of zone w once the announcement that claims zone z has lost its claims: a READY zone left without owner
and claimant becomes idle (R39, R124, R125). -/
def State.stageUnclaimed (s : State) (z w : Zone) : Stage :=
  if s.zones[z].claimant ≠ none ∧ s.zones[w].claimant = s.zones[z].claimant ∧ s.zones[w].owner = none
      ∧ s.stages[w].bias = .ready ∧ s.stages[w].fade = none then s.stages[w].startIdle
  else s.stages[w]

/-- The record of slot j once the announcement that claims zone z has lost its claims (R39, R52). -/
def State.slotUnclaimed (s : State) (z : Zone) (j : SlotId) : Slot :=
  if s.zones[z].claimant = some (s.handleAt j) then s.slots[j].withoutClaims else s.slots[j]

/-- Every zone of a set has no owner, is READY and has no zone fade: what a start waits for (R41). -/
abbrev State.zonesReady (s : State) (zs : ZoneSet) : Prop :=
  ∀ w : Zone, inZones zs w = true → s.zones[w].owner = none ∧ s.stages[w].bias = .ready ∧ s.stages[w].fade = none

/-- Burst b's data is the next to be taken, and leaves the port `after`: the burst in progress, which ends with it, or
one that has ended before (R142, log 26). -/
abbrev Port.delivers (p : Port) (b : Burst) (after : Port) : Prop :=
  (p.arriving = none ∧ p.burst = some b ∧ after = { p with state := .idle, burst := none, fcs := false })
    ∨ (p.arriving = some b ∧ after = { p with arriving := none })

/-- The ring does not hold the bytes that the next decoded sample of a clip draws on: one byte of PCM8, two of PCM16, one
data byte of SD4, and at the start of an SD4 block its header and first data byte (R70, R86, R90). -/
abbrev lacksSample (coding : Byte) (blockStart : Bool) (ring : List Byte) : Prop :=
  (coding = 1#8 ∧ ring = []) ∨ (coding = 2#8 ∧ ring.length < 2)
    ∨ (coding = 3#8 ∧ (ring = [] ∨ (blockStart = true ∧ ring.length < 5)))

/-- The next decoded sample of a clip with `left` bytes still to take: the ring gives up the bytes whose last use this is
and keeps `rest`, and the decoder stands as `after` (R86, R87, R88, R90, R91, R94, R96). At the start of an SD4 block the
header passes its checks. -/
def takesSample (coding : Byte) (d : Decoder) (left : Nat) (ring rest : List Byte) (sample : Int) (after : Decoder) : Prop :=
  (coding = 1#8 ∧ after = d ∧ ∃ b, ring = b :: rest ∧ sample = ((b.toNat : Int) - 128) * 256)
  ∨ (coding = 2#8 ∧ after = d ∧ ∃ lo hi, ring = lo :: hi :: rest
      ∧ sample = (if hi.toNat < 128 then (lo.toNat : Int) + 256 * hi.toNat else (lo.toNat : Int) + 256 * hi.toNat - 65536))
  ∨ (coding = 3#8 ∧ sample = after.predictor
      ∧ ((d.blockPos = d.blockLen ∧ ∃ (lo hi index b : Byte) (more : List Byte) (start : Int),
            ring = lo :: hi :: index :: 0#8 :: b :: more ∧ rest = b :: more ∧ index.toNat ≤ 79
            ∧ start = (if hi.toNat < 128 then (lo.toNat : Int) + 256 * hi.toNat
                else (lo.toNat : Int) + 256 * hi.toNat - 65536)
            ∧ after = { ({ d with predictor := start, stepIndex := index.toNat } : Decoder).decodeCode (b.setWidth 4) with
                blockLen := min 128 left, blockPos := 4, nibble := .high })
        ∨ (d.blockPos ≠ d.blockLen ∧ d.nibble = .low ∧ ∃ b more, ring = b :: more ∧ rest = ring
            ∧ after = { d.decodeCode (b.setWidth 4) with nibble := .high })
        ∨ (d.blockPos ≠ d.blockLen ∧ d.nibble = .high ∧ ∃ b, ring = b :: rest
            ∧ after = { d.decodeCode ((b >>> 4).setWidth 4) with nibble := .low, blockPos := d.blockPos + 1 })))

/-- The rate codes with the frames that one decoded sample covers (R97). -/
abbrev coversFrames (rate : Byte) (k : Nat) : Prop := (rate.toNat, k) ∈ [(0, 6), (1, 4), (2, 3), (3, 2), (4, 1)]

/-- A value with the trim applied, held to the range of a sample (R99). -/
def trimmedTo (trim : Nat) (x : Int) : Int := max (-32768) (min 32767 ((x * trim).tdiv 16))

/-- The sample an engine hands on for a trimmed value: scaled by the fade factor in a fade (R80). -/
def Engine.handsOn (g : Engine) (value : Int) : Int :=
  if g.state = .fading then (value * (256 - (g.fadePos : Int))).tdiv 256 else value

/-- The fade position after a frame (R80). -/
def Engine.fadeAfter (g : Engine) : Nat := if g.state = .fading then g.fadePos + 1 else g.fadePos

/-- The exit test of PRIMING holds by the ring or the fetch cursor (R69). -/
abbrev Engine.filled (g : Engine) : Prop := 256 ≤ g.ring.length ∨ g.fetch.phase = .done ∨ g.fetch.phase = .waiting

/-- The engine as it stands in the CLIP under its play cursor: one that enters it begins at clip position 0 with its block
set back (R70, R85). -/
def Engine.inClip (g : Engine) : Engine :=
  if g.progress = .fresh then
    { g with progress := .begun, clipPos := 0, dec := { g.dec with blockPos := 0, blockLen := 0, nibble := .low } }
  else g

/-- The GAP or repeat gap under the play cursor has given its last frame, whether or not GAP_END or REPEAT_GAP_END was
taken since (R71, R76, log 11). -/
abbrev Engine.gapPassed (g : Engine) : Prop := g.progress = .done ∨ (g.progress = .begun ∧ g.framesRemaining = 0)

/-- The play cursor leaves its segment at the next frame, and the decoder then stands as d: a GAP that has given its last
frame, or a CLIP at its length whose last sample has given all its frames (R68, R70, R71, R97). -/
def Engine.leavesSegment (g : Engine) (dir : Directory) (segments : List Segment) (d : Decoder) : Prop :=
  g.play.stage = .segment
  ∧ ((∃ ms, segments[g.play.seg]? = some (.gap ms) ∧ g.gapPassed ∧ d = g.dec)
    ∨ ∃ (n : Nat) (override : Option Nat) (entry : ClipEntry),
        segments[g.play.seg]? = some (.clip n override false) ∧ dir.entries[n]? = some entry
        ∧ coversFrames entry.rate g.dec.phase ∧ g.progress = .begun ∧ g.clipPos = entry.length
        ∧ d = { g.dec with previous := g.dec.current, phase := 0 })

/-- The first sample of an SD4 block is due, the five bytes it draws on are there, and the header fails a check (R90). -/
def Engine.findsBadBlock (g : Engine) (dir : Directory) (segments : List Segment) (entry : ClipEntry) : Prop :=
  (∃ (n : Nat) (override : Option Nat),
    segments[g.play.seg]? = some (.clip n override false) ∧ dir.entries[n]? = some entry)
  ∧ entry.coding = 3#8 ∧ g.progress = .begun ∧ (g.dec.phase = 0 ∨ coversFrames entry.rate g.dec.phase)
  ∧ g.clipPos < entry.length ∧ g.dec.blockPos = g.dec.blockLen
  ∧ ∃ (lo hi index reserved b : Byte) (more : List Byte), g.ring = lo :: hi :: index :: reserved :: b :: more
      ∧ (79 < index.toNat ∨ reserved ≠ 0#8)

/-- The fetch cursor is still in the clip's data in the pass being played (R74). -/
abbrev Engine.fetchesPlayed (g : Engine) : Prop :=
  g.fetch.lap = .same ∧ g.fetch.seg = g.play.seg ∧ g.fetch.phase = .data

/-- Candidate j is visited before announcement i in a pass: its priority is higher, or the same and it stands earlier in
the submission order list (R35). -/
abbrev State.visitedBefore (s : State) (i j : SlotId) : Prop :=
  j ∈ s.order ∧ (s.slots[j].state = .queued ∨ s.slots[j].state = .granted) ∧ s.slots[j].priority ≤ 7
    ∧ (s.slots[i].priority < s.slots[j].priority
      ∨ (s.slots[i].priority = s.slots[j].priority ∧ s.order.idxOf j < s.order.idxOf i))

/-- Every zone of candidate i's effective mask, of which there is one, is takeable when the pass from s to t visits it: no
candidate before it has reserved it, and its owner, if any, is PLAYING with lower priority or STOPPING, made so in this
pass or before (R36, R38, R40). -/
abbrev State.passGrants (s t : State) (i : SlotId) (mask : ZoneSet) : Prop :=
  mask ≠ 0#4 ∧ ∀ z : Zone, inZones mask z = true →
    (∀ j : SlotId, s.visitedBefore i j → inZones s.slots[j].zoneMask z = false)
    ∧ ∀ h ∈ s.zones[z].owner, t.slots[handleSlot h].state = .stopping
        ∨ (s.slots[handleSlot h].state = .playing ∧ s.slots[handleSlot h].priority < s.slots[i].priority)

/-- A segment record's fields are in their ranges (R10). -/
def Segment.inRange : Segment → Bool
  | .clip n trim _ => decide (n ≤ 511) && trim.all fun k => decide (k ≤ 31)
  | .gap ms => decide (1 ≤ ms) && decide (ms ≤ 4095)
  | .mark _ => true

/-- The end pending on a HELD claim (R148). -/
def Claim.ending : Claim → Option EndPending
  | .held _ _ ending => ending
  | .none => Option.none
  | .waiting _ => Option.none

/-! ### The laws -/

/-- R162: at most 32 records, and an OVERFLOW record only as the newest. Without one there are at most 31. -/
def State.EventLaw (s : State) : Prop :=
  s.events.records.length ≤ 32 ∧ (∀ r ∈ s.events.records.dropLast, r.kind ≠ .overflow)
    ∧ ((∀ r ∈ s.events.records, r.kind ≠ .overflow) → s.events.records.length ≤ 31)

/-- R13: the free count and the lists' lengths add up to 256, no list is longer than 32, and a FREE slot holds no
records. -/
def State.PoolLaw (s : State) : Prop :=
  s.poolFree + (allSlots.map fun i => s.slots[i].segments.length).sum = 256
    ∧ ∀ i : SlotId, s.slots[i].segments.length ≤ 32 ∧ (s.slots[i].state = .free → s.slots[i].segments = [])

/-- R15: the list holds each announcement in QUEUED, GRANTED, PLAYING or STOPPING exactly once and no other. -/
def State.OrderLaw (s : State) : Prop :=
  s.order.Nodup ∧ ∀ i : SlotId, i ∈ s.order ↔ s.slots[i].state.scheduled = true

/-- R116, R156: beside a scheduled announcement the directory is VALID and no EXCLUSIVE claim is WAITING or HELD; nor is
one beside a load. -/
def State.DirectoryLaw (s : State) : Prop :=
  (∀ i : SlotId, s.slots[i].state.scheduled = true → s.dir.state = .valid ∧ s.port.claim.exclusive = false)
    ∧ (s.dir.state = .loading → s.port.claim.exclusive = false)

/-- R140, R145: a burst stands in the record exactly in the two burst states, a claim is HELD exactly in HOST_HELD, a
pass-through byte runs under a HELD claim alone, FCS is asserted in a burst and released in IDLE. -/
def State.PortLaw (s : State) : Prop :=
  (s.port.burst.isSome = true ↔ s.port.state = .engineBurst ∨ s.port.state = .directoryBurst)
    ∧ (s.port.claim.isHeld = true ↔ s.port.state = .hostHeld)
    ∧ (s.port.ptByte.isSome = true → s.port.claim.isHeld = true)
    ∧ (s.port.burst.isSome = true → s.port.fcs = true) ∧ (s.port.state = .idle → s.port.fcs = false)

/-- R42, R121, R125, R127, R129: the ranges of a zone stage; OFF stands at level 0 and READY at 1024; a zone with an
owner is READY without a zone fade; a zone fade runs on a READY zone; the idle timer runs only for an idle zone. -/
def State.StageLaw (s : State) : Prop :=
  ∀ z : Zone,
    s.stages[z].volumeTarget ≤ 128 ∧ s.stages[z].volumeCurrent ≤ 128 ∧ s.stages[z].idleHold ≤ 255
      ∧ s.stages[z].level ≤ 1024 ∧ s.stages[z].dac ≤ 4095
      ∧ (s.stages[z].bias = .off → s.stages[z].level = 0) ∧ (s.stages[z].bias = .ready → s.stages[z].level = 1024)
      ∧ (s.zones[z].owner.isSome = true → s.stages[z].bias = .ready ∧ s.stages[z].fade = none)
      ∧ (∀ f ∈ s.stages[z].fade, s.stages[z].bias = .ready ∧ f.position ≤ 256)
      ∧ (∀ n ∈ s.stages[z].idleTimer, n ≤ 2540 ∧ s.zoneIdle z = true)

/-- R60, R61, R146: an engine's fill and reserved bytes never exceed 512; a request stands only where 64 bytes were
free; bytes are reserved for a granted DATA request alone; no burst has more than 64 data bytes. -/
def State.RingLaw (s : State) : Prop :=
  (∀ e : EngineId,
    s.engines[e].ring.length + s.engines[e].reserved ≤ 512 ∧ s.engines[e].reserved ≤ 64
      ∧ (s.engines[e].request = none → s.engines[e].reserved = 0)
      ∧ ∀ r ∈ s.engines[e].request, s.engines[e].ring.length ≤ 448 ∧ r.count ≤ 64
          ∧ (r.granted = false ∨ r.kind = .header → s.engines[e].reserved = 0))
    ∧ (∀ b ∈ s.port.burst, b.count ≤ 64) ∧ (∀ b ∈ s.port.arriving, b.count ≤ 64)
    ∧ ∀ p ∈ s.dir.progress, ∀ r ∈ p.request, r.count ≤ 64

/-- R42, R56, R58: an engine is bound to at most one announcement, an announcement to an engine exactly when it is
PLAYING or STOPPING, and an engine is IDLE exactly when unbound and FADING exactly for a STOPPING announcement. -/
def State.BindingLaw (s : State) : Prop :=
  (∀ e : EngineId,
    (s.engines[e].binding = none ↔ s.engines[e].state = .idle)
      ∧ ∀ h ∈ s.engines[e].binding, s.handleAt (handleSlot h) = h ∧ s.slots[handleSlot h].engine = some e
          ∧ (s.engines[e].state = .fading ↔ s.slots[handleSlot h].state = .stopping))
    ∧ ∀ i : SlotId,
        (s.slots[i].engine.isSome = true ↔ s.slots[i].state = .playing ∨ s.slots[i].state = .stopping)
          ∧ ∀ e ∈ s.slots[i].engine, s.engines[e].binding = some (s.handleAt i)

/-- R2, R32, R37: a claimant is a GRANTED announcement with the zone among its effective zones, and the zone is
enabled; an owner is a PLAYING or STOPPING one with the zone among its effective zones; and in these three states
every effective zone names the announcement, there is at least one, and all are of the zone mask. -/
def State.ZoneLaw (s : State) : Prop :=
  (∀ z : Zone,
    (∀ h ∈ s.zones[z].claimant, s.handleAt (handleSlot h) = h ∧ s.slots[handleSlot h].state = .granted
        ∧ inZones s.slots[handleSlot h].effZones z = true ∧ s.stages[z].enabled = true)
      ∧ ∀ h ∈ s.zones[z].owner, s.handleAt (handleSlot h) = h
          ∧ (s.slots[handleSlot h].state = .playing ∨ s.slots[handleSlot h].state = .stopping)
          ∧ inZones s.slots[handleSlot h].effZones z = true)
    ∧ ∀ i : SlotId,
        s.slots[i].effZones &&& ~~~ s.slots[i].zoneMask = 0#4
          ∧ (s.slots[i].state = .granted ∨ s.slots[i].state = .playing ∨ s.slots[i].state = .stopping ↔
              s.slots[i].effZones ≠ 0#4)
          ∧ ∀ z : Zone, inZones s.slots[i].effZones z = true →
              (s.slots[i].state = .granted ∧ s.zones[z].claimant = some (s.handleAt i))
                ∨ (s.slots[i].state ≠ .granted ∧ s.zones[z].owner = some (s.handleAt i))

/-- R154, R176: the mailbox is EXECUTING between two steps only while a FLASH_RELEASE waits for a pass-through byte
(log 20). -/
def State.MailboxLaw (s : State) : Prop :=
  s.mailbox.executing = true →
    s.port.ptByte.isSome = true ∧ s.port.claim.isHeld = true ∧ s.port.claim.ending.isSome = true

/-- R1, R2, R7, R8, R9, R10: the ranges of the clock's counters, of an announcement's fields with its segment records,
play position and resume point, and of the play cursors; and of the mailbox's count of frames (log 4). -/
def State.RangeLaw (s : State) : Prop :=
  s.clock.tick ≤ 47 ∧ s.clock.slew ≤ 7 ∧ s.mailbox.foldedEnd ≤ 2
    ∧ (∀ i : SlotId,
        s.slots[i].priority ≤ 7 ∧ s.slots[i].repeatCount ≤ 15 ∧ s.slots[i].repeatGap ≤ 255
          ∧ s.slots[i].deadlineSetting ≤ 255 ∧ (∀ n ∈ s.slots[i].deadline, n ≤ 25500)
          ∧ s.slots[i].faultCount ≤ 2 ∧ s.slots[i].underruns ≤ 255
          ∧ s.slots[i].segments.length ≤ 32 ∧ (∀ g ∈ s.slots[i].segments, g.inRange = true)
          ∧ s.slots[i].playPos.seg ≤ 31 ∧ 1 ≤ s.slots[i].playPos.pass ∧ s.slots[i].playPos.pass ≤ 255
          ∧ (∀ p ∈ s.slots[i].resume, p.seg ≤ 31 ∧ 1 ≤ p.pass ∧ p.pass ≤ 255)
          ∧ (s.slots[i].state ≠ .free → s.slots[i].zoneMask ≠ 0#4)
          ∧ (s.slots[i].state = .stopping ↔ s.slots[i].stop.isSome = true))
    ∧ ∀ e : EngineId,
        s.engines[e].play.seg ≤ 31 ∧ 1 ≤ s.engines[e].play.pass ∧ s.engines[e].play.pass ≤ 255

end Sys2Proof.Machine
end

