-- ==== Sys2Proof/Certificates/Slice0/Obligations.lean ====
section
/-! DEFINITION. The statements about the A416, each a proposition for the provers. -/

open Sys2Proof Sys2Proof.Machine

/-! ### The machine -/

/-- A step runs the command at the front of the queue with the queue's rest, and on an empty queue the part idles (the
model's own form of a step, logs 2 and 19). -/
def Obligations.StepRunsFrontCommand : Prop :=
  (∀ (c : Instr) (rest : List Instr) (s : State),
    step (s.withPending (c :: rest)) = exec c (s.withPending rest))
  ∧ ∀ s : State, step (s.withPending []) = .next (s.withPending [])

/-- No command stops the part, and none touches the commands that wait behind it (log 1). -/
def Obligations.EveryCommandAnswersNext : Prop :=
  ∀ (c : Instr) (s : State), ∃ t : State, exec c s = .next t ∧ t.pending = s.pending

/-! ### Announcements (chapter 1) -/

/-- R17, R18: an accepted ANN_OPEN takes the lowest-numbered FREE slot, sets up its whole record and answers the handle
and the number of slots still FREE. -/
def Obligations.AnnOpenTakesLowestFreeSlot : Prop :=
  ∀ (s : State) (i : SlotId) (policy : Policy),
    s.takesCommand → s.mailbox.p[0].toNat ≤ 7 → 1 ≤ s.mailbox.p[1].toNat → s.mailbox.p[1].toNat ≤ 15 →
    (s.mailbox.p[2].toNat, policy) ∈ [(0, Policy.discard), (1, Policy.restart), (2, Policy.resume)] →
    s.mailbox.p[3].toNat ≤ 15 → s.slots[i].state = .free → (∀ j : SlotId, j < i → s.slots[j].state ≠ .free) →
    ∃ t : State,
      exec .annOpen s
        = .next (t.answered 0x10#8 .ok ⟨handleOf s.slots[i].generation i, byteOf (s.freeSlots - 1), 0#8, 0#8⟩)
      ∧ t.freeSlots + 1 = s.freeSlots
      ∧ t = { s with
              slots := s.slots.set i
                { state := .building, generation := s.slots[i].generation, priority := s.mailbox.p[0].toNat
                  zoneMask := s.mailbox.p[1].setWidth 4, effZones := 0#4, policy := policy
                  repeatCount := s.mailbox.p[3].toNat, repeatGap := s.mailbox.p[4].toNat
                  deadlineSetting := s.mailbox.p[5].toNat, deadline := none, tag := s.mailbox.p[6]
                  segments := [], playPos := ⟨0, 1⟩, resume := none, faultCount := 0, underruns := 0
                  stop := none, engine := none, startDue := false } }

/-- R17, R19, R20: ANN_OPEN's two refusals, and ANN_APPEND's after the handle checks, each in their order, change
nothing but the mailbox. -/
def Obligations.OpenAndAppendRefused : Prop :=
  ∀ s : State, s.takesCommand →
    ((7 < s.mailbox.p[0].toNat ∨ s.mailbox.p[1] = 0#8 ∨ 15 < s.mailbox.p[1].toNat ∨ 2 < s.mailbox.p[2].toNat
        ∨ 15 < s.mailbox.p[3].toNat) →
      exec .annOpen s = .next (s.answered 0x10#8 .badParam ⟨0#8, 0#8, 0#8, 0#8⟩))
    ∧ ((s.mailbox.p[0].toNat ≤ 7 ∧ s.mailbox.p[1] ≠ 0#8 ∧ s.mailbox.p[1].toNat ≤ 15 ∧ s.mailbox.p[2].toNat ≤ 2
          ∧ s.mailbox.p[3].toNat ≤ 15 ∧ ∀ i : SlotId, s.slots[i].state ≠ .free) →
        exec .annOpen s = .next (s.answered 0x10#8 .noSlot ⟨0#8, 0#8, 0#8, 0#8⟩))
    ∧ ∀ i : SlotId, s.names s.mailbox.p[0] i →
      (s.slots[i].state ≠ .building → exec .annAppend s = .next (s.answered 0x11#8 .badState ⟨0#8, 0#8, 0#8, 0#8⟩))
      ∧ (s.slots[i].state = .building → (∀ g, ¬ spellsSegment s.mailbox.p g) →
          exec .annAppend s = .next (s.answered 0x11#8 .badParam ⟨0#8, 0#8, 0#8, 0#8⟩))
      ∧ (s.slots[i].state = .building → (∃ g, spellsSegment s.mailbox.p g) → 32 ≤ s.slots[i].segments.length →
          exec .annAppend s = .next (s.answered 0x11#8 .tooLong ⟨0#8, 0#8, 0#8, 0#8⟩))
      ∧ (s.slots[i].state = .building → (∃ g, spellsSegment s.mailbox.p g) → s.slots[i].segments.length < 32 →
          s.poolFree = 0 → exec .annAppend s = .next (s.answered 0x11#8 .poolExhausted ⟨0#8, 0#8, 0#8, 0#8⟩))

/-- R4: the two handle checks of the four commands that take a handle; a refused check changes nothing but the
mailbox. -/
def Obligations.HandleChecks : Prop :=
  ∀ (s : State) (i : SlotId) (c : Instr) (code : Byte),
    (c, code) ∈ [(Instr.annAppend, 0x11#8), (Instr.annSubmit, 0x12#8), (Instr.annCancel, 0x13#8),
      (Instr.annStatus, 0x14#8)] →
    s.takesCommand → s.mailbox.p[0].toNat % 16 = i.val →
    (s.slots[i].state = .free → exec c s = .next (s.answered code .badHandle ⟨0#8, 0#8, 0#8, 0#8⟩))
    ∧ (s.slots[i].state ≠ .free → s.slots[i].generation.toNat ≠ s.mailbox.p[0].toNat / 16 →
        exec c s = .next (s.answered code .staleHandle ⟨0#8, 0#8, 0#8, 0#8⟩))

/-- R20, R21: an accepted ANN_APPEND takes one record from the pool and puts the segment at the end of the list. -/
def Obligations.AnnAppendAddsSegment : Prop :=
  ∀ (s : State) (i : SlotId) (g : Segment),
    s.takesCommand → s.names s.mailbox.p[0] i → s.slots[i].state = .building → spellsSegment s.mailbox.p g →
    s.slots[i].segments.length < 32 → 0 < s.poolFree →
    exec .annAppend s
      = .next (({ s with
          slots := s.slots.set i { s.slots[i] with segments := s.slots[i].segments ++ [g] }
          poolFree := s.poolFree - 1 } : State).answered 0x11#8 .ok
            ⟨byteOf (s.slots[i].segments.length + 1), byteOf (min (s.poolFree - 1) 255), 0#8, 0#8⟩)

/-- R8, R22, R23: an accepted ANN_SUBMIT queues the announcement at the end of the submission order list, arms its
deadline and requests a pass. -/
def Obligations.AnnSubmitQueues : Prop :=
  ∀ (s : State) (i : SlotId),
    s.takesCommand → s.names s.mailbox.p[0] i → s.slots[i].state = .building →
    s.port.claim.exclusive = false → s.dir.state = .valid →
    (∃ g ∈ s.slots[i].segments, ∀ v, g ≠ .mark v) →
    (∀ n trim fault, Segment.clip n trim fault ∈ s.slots[i].segments → s.dir.accepts n) →
    exec .annSubmit s
      = .next (({ s with
          slots := s.slots.set i
            { s.slots[i] with
              state := .queued
              deadline := if s.slots[i].deadlineSetting = 0 then none else some (100 * s.slots[i].deadlineSetting) }
          order := s.order ++ [i]
          passPending := true } : State).answered 0x12#8 .ok ⟨s.mailbox.p[0], 0#8, 0#8, 0#8⟩)

/-- R22, R117: ANN_SUBMIT's refusals after the handle checks, in their order, change nothing but the mailbox. BAD_CLIP
names the first segment whose clip the directory does not accept. -/
def Obligations.AnnSubmitRefused : Prop :=
  ∀ (s : State) (i : SlotId), s.takesCommand → s.names s.mailbox.p[0] i →
    (s.slots[i].state ≠ .building → exec .annSubmit s = .next (s.answered 0x12#8 .badState ⟨0#8, 0#8, 0#8, 0#8⟩))
    ∧ (s.slots[i].state = .building → (s.port.claim.exclusive = true ∨ s.dir.state = .loading) →
        exec .annSubmit s = .next (s.answered 0x12#8 .busy ⟨0#8, 0#8, 0#8, 0#8⟩))
    ∧ (s.slots[i].state = .building → s.port.claim.exclusive = false →
        (s.dir.state = .empty ∨ s.dir.state = .failed ∨ s.dir.state = .stale) →
        exec .annSubmit s = .next (s.answered 0x12#8 .dirInvalid ⟨0#8, 0#8, 0#8, 0#8⟩))
    ∧ (s.slots[i].state = .building → s.port.claim.exclusive = false → s.dir.state = .valid →
        (∀ g ∈ s.slots[i].segments, ∃ v, g = .mark v) →
        exec .annSubmit s = .next (s.answered 0x12#8 .noSound ⟨0#8, 0#8, 0#8, 0#8⟩))
    ∧ ∀ (before after : List Segment) (n : Nat) (trim : Option Nat) (fault : Bool),
        s.slots[i].state = .building → s.port.claim.exclusive = false → s.dir.state = .valid →
        s.slots[i].segments = before ++ .clip n trim fault :: after → ¬ s.dir.accepts n →
        (∀ m t f, Segment.clip m t f ∈ before → s.dir.accepts m) →
        exec .annSubmit s
          = .next (s.answered 0x12#8 .badClip ⟨byteOf before.length, byteOf n, byteOf (n / 256 % 2), 0#8⟩)

/-- R24, R28, R29: the cancel of a BUILDING or QUEUED announcement frees its slot at once with outcome CANCELLED: the
FINISHED event, the records back to the pool, the entry out of the list, the next generation; and a pass for a QUEUED
one alone. A BUILDING one is not in the list (R15). -/
def Obligations.AnnCancelFreesWaiting : Prop :=
  ∀ (s : State) (i : SlotId), s.takesCommand → s.names s.mailbox.p[0] i →
    (s.slots[i].state = .queued ∨ (s.slots[i].state = .building ∧ i ∉ s.order)) →
    exec .annCancel s
      = .next (({ s with
          events := s.events.offer
            { kind := .finished, handle := s.mailbox.p[0], tag := s.slots[i].tag, d0 := 2#8
              d1 := byteOf s.slots[i].underruns, d2 := byteOf s.slots[i].faultCount }
          poolFree := s.poolFree + s.slots[i].segments.length
          order := s.order.filter fun j => j != i
          passPending := s.passPending || s.slots[i].state == .queued
          slots := s.slots.set i (Slot.free (s.slots[i].generation + 1#4)) } : State).answered
            0x13#8 .ok ⟨0#8, 0#8, 0#8, 0#8⟩)

/-- R24, R28, R39, R44: a waiting announcement that is cancelled while GRANTED (CANCELLED), or whose deadline runs out
while QUEUED or GRANTED (EXPIRED), has its claims withdrawn and its slot freed, and a pass is requested. A zone that it
leaves idle starts its idle hold (R125). Nothing else changes. -/
def Obligations.CancelAndExpiryWithdrawClaims : Prop :=
  ∀ (s : State) (i : SlotId),
    ∃ (zones : Vector ZoneRec 4) (stages : Vector Stage 4),
      (∀ z : Zone,
        zones[z] = (if s.zones[z].claimant = some (s.handleAt i)
          then { owner := s.zones[z].owner, claimant := none } else s.zones[z])
        ∧ stages[z] = (if s.zones[z].claimant = some (s.handleAt i) ∧ s.zones[z].owner = none
            ∧ s.stages[z].bias = .ready ∧ s.stages[z].fade = none
          then s.stages[z].startIdle else s.stages[z]))
      ∧ (s.takesCommand → s.names s.mailbox.p[0] i → s.slots[i].state = .granted →
          exec .annCancel s
            = .next (({ s with
                events := s.events.offer
                  { kind := .finished, handle := s.handleAt i, tag := s.slots[i].tag, d0 := 2#8
                    d1 := byteOf s.slots[i].underruns, d2 := byteOf s.slots[i].faultCount }
                zones := zones, stages := stages
                poolFree := s.poolFree + s.slots[i].segments.length
                order := s.order.filter fun j => j != i
                passPending := true
                slots := s.slots.set i (Slot.free (s.slots[i].generation + 1#4)) } : State).answered
                  0x13#8 .ok ⟨0#8, 0#8, 0#8, 0#8⟩))
      ∧ (s.resetnLow = false → (s.slots[i].state = .queued ∨ s.slots[i].state = .granted) →
          s.slots[i].deadline = some 0 →
          exec (.deadlineExpiry i) s
            = .next { s with
                events := s.events.offer
                  { kind := .finished, handle := s.handleAt i, tag := s.slots[i].tag, d0 := 4#8
                    d1 := byteOf s.slots[i].underruns, d2 := byteOf s.slots[i].faultCount }
                zones := zones, stages := stages
                poolFree := s.poolFree + s.slots[i].segments.length
                order := s.order.filter fun j => j != i
                passPending := true
                slots := s.slots.set i (Slot.free (s.slots[i].generation + 1#4)) })

/-- R6, R25, R26, R79: the cancel of a PLAYING announcement makes it STOPPING with reason CANCELLED, starts its
engine's fade and requests a pass; its zones, engine and play position stay. The cancel of a STOPPING one sets cancel
pending where the reason is PREEMPTED and it is clear, and is refused with BAD_STATE in every other case. -/
def Obligations.AnnCancelOfPlayingOrStopping : Prop :=
  ∀ (s : State) (i : SlotId), s.takesCommand → s.names s.mailbox.p[0] i →
    (∀ e : EngineId, s.slots[i].state = .playing → s.slots[i].engine = some e →
      exec .annCancel s
        = .next (({ s with
            slots := s.slots.set i
              { s.slots[i] with state := .stopping, stop := some ⟨.cancelled, false, none⟩ }
            engines := s.engines.set e
              { s.engines[e] with
                state := .fading, fadePos := 0, fadePriming := s.engines[e].state == .priming }
            passPending := true } : State).answered 0x13#8 .ok ⟨5#8, 0#8, 0#8, 0#8⟩))
    ∧ ∀ why : Stopping, s.slots[i].state = .stopping → s.slots[i].stop = some why →
        ((why.reason = .preempted ∧ why.cancelPending = false) →
          exec .annCancel s
            = .next (({ s with
                slots := s.slots.set i { s.slots[i] with stop := some { why with cancelPending := true } } } : State).answered
                  0x13#8 .ok ⟨5#8, 0#8, 0#8, 0#8⟩))
        ∧ ((why.reason ≠ .preempted ∨ why.cancelPending = true) →
            exec .annCancel s = .next (s.answered 0x13#8 .badState ⟨0#8, 0#8, 0#8, 0#8⟩))

/-- R27: ANN_STATUS reports the state code, the play position, the fault count and at most 15 underrun episodes, and
changes nothing but the mailbox. -/
def Obligations.AnnStatusReports : Prop :=
  ∀ (s : State) (i : SlotId) (code : Byte), s.takesCommand → s.names s.mailbox.p[0] i →
    (s.slots[i].state, code) ∈ [(AnnState.building, 1#8), (AnnState.queued, 2#8), (AnnState.granted, 3#8),
      (AnnState.playing, 4#8), (AnnState.stopping, 5#8)] →
    exec .annStatus s
      = .next (s.answered 0x14#8 .ok ⟨code, byteOf s.slots[i].playPos.seg, byteOf s.slots[i].playPos.pass,
          byteOf (16 * s.slots[i].faultCount + min s.slots[i].underruns 15)⟩)

/-! ### Zone stages: ZONE_SET (chapter 6) -/

/-- R128, R135, R136: a ZONE_SET that keeps the zone's enable sets the volume target and the idle hold, restarting the
timer of an idle zone where the hold changes, and answers the stage as it then stands; a parameter out of range is
refused with BAD_PARAM and changes nothing but the mailbox. -/
def Obligations.ZoneSetKeepsEnable : Prop :=
  ∀ (s : State), s.takesCommand →
    (∀ z : Zone, s.mailbox.p[0].toNat = z.val →
      s.mailbox.p[1] = (if s.stages[z].enabled then 1#8 else 0#8) → s.mailbox.p[2].toNat ≤ 128 →
      ∃ g : Stage, g = s.stageSet z s.mailbox.p[2].toNat s.mailbox.p[3].toNat
        ∧ exec .zoneSet s
          = .next (({ s with stages := s.stages.set z g } : State).answered 0x20#8 .ok
              ⟨biasCode g.bias, byteOf g.volumeCurrent, if s.zones[z].owner.isSome then 1#8 else 0#8,
                if s.zones[z].claimant.isSome then 1#8 else 0#8⟩))
    ∧ ((3 < s.mailbox.p[0].toNat ∨ 1 < s.mailbox.p[1].toNat ∨ 128 < s.mailbox.p[2].toNat) →
        exec .zoneSet s = .next (s.answered 0x20#8 .badParam ⟨0#8, 0#8, 0#8, 0#8⟩))

/-- R39, R51, R52, R53, R131, R132, R134: a ZONE_SET that enables a disabled zone, or disables one whose owner, if it has
one, keeps another zone, after its steps 1 and 2; either requests a pass. The enable leaves the bias machine alone. At
the disable the claimant loses all its claims, wherever it has them; a PLAYING or STOPPING owner goes on without the
zone, whose stage starts a zone fade from its last sample; without an owner the bias ramps down at once from RAMP_UP,
READY or RAMP_DOWN, or a zone fade goes on. -/
def Obligations.ZoneSetChangesEnable : Prop :=
  ∀ (s : State) (z : Zone) (g : Stage), s.takesCommand → s.mailbox.p[0].toNat = z.val → s.mailbox.p[2].toNat ≤ 128 →
    g = s.stageSet z s.mailbox.p[2].toNat s.mailbox.p[3].toNat →
    (s.stages[z].enabled = false → s.mailbox.p[1] = 1#8 →
      exec .zoneSet s
        = .next (({ s with
            stages := s.stages.set z { g with enabled := true }
            passPending := true } : State).answered 0x20#8 .ok
            ⟨biasCode g.bias, byteOf g.volumeCurrent, if s.zones[z].owner.isSome then 1#8 else 0#8,
              if s.zones[z].claimant.isSome then 1#8 else 0#8⟩))
    ∧ (s.stages[z].enabled = true → s.mailbox.p[1] = 0#8 → s.claimantGranted z →
        (∀ h ∈ s.zones[z].owner, s.handleAt (handleSlot h) = h
          ∧ (s.slots[handleSlot h].state = .playing ∨ s.slots[handleSlot h].state = .stopping)
          ∧ s.slots[handleSlot h].effZones &&& ~~~ zoneBit z ≠ 0#4) →
        ∃ t : State,
          exec .zoneSet s
            = .next (t.answered 0x20#8 .ok ⟨biasCode t.stages[z].bias, byteOf t.stages[z].volumeCurrent, 0#8, 0#8⟩)
          ∧ t = { s with slots := t.slots, zones := t.zones, stages := t.stages, passPending := true }
          ∧ t.zones[z] = { owner := none, claimant := none }
          ∧ (∀ w : Zone, w ≠ z → t.zones[w] = s.zoneUnclaimed z w ∧ t.stages[w] = s.stageUnclaimed z w)
          ∧ t.stages[z] = (if s.zones[z].owner.isSome then
                { g with enabled := false, idleTimer := none, fade := some ⟨0, s.stages[z].lastSample, .disable⟩ }
              else if s.stages[z].fade.isSome then { g with enabled := false }
              else { g with enabled := false, idleTimer := none
                            bias := if s.stages[z].bias = .off then .off else .rampDown })
          ∧ ∀ j : SlotId, t.slots[j] = (if s.zones[z].owner = some (s.handleAt j) then
                { s.slots[j] with effZones := s.slots[j].effZones &&& ~~~ zoneBit z }
              else s.slotUnclaimed z j))

/-- R39, R47, R48, R49, R52, R53, R58, R131, R132: a ZONE_SET that disables the last zone of its owner ends that
announcement at once. A PLAYING one is freed ZONE_LOST under DISCARD or requeued with preemptor FFh under RESTART or
RESUME; a STOPPING one is disposed of as at the end of its fade. Its engine is unbound, the claimant loses its claims,
and the stage starts a zone fade from its last sample. -/
def Obligations.ZoneSetTakesLastZone : Prop :=
  ∀ (s : State) (z : Zone) (i : SlotId) (e : EngineId) (a : Slot), s.takesCommand →
    s.mailbox.p[0].toNat = z.val → s.mailbox.p[1] = 0#8 → s.mailbox.p[2].toNat ≤ 128 →
    s.stages[z].enabled = true → a = s.slots[i] → s.zones[z].owner = some (s.handleAt i) → s.claimantGranted z →
    (∀ w : Zone, w ≠ z → s.zones[w].owner ≠ some (s.handleAt i)) →
    a.effZones = zoneBit z → a.engine = some e →
    (a.state = .playing ∨ (a.state = .stopping ∧ a.stop.isSome = true)) →
    ∃ t : State,
      t = { s with
            zones := t.zones, stages := t.stages
            engines := s.engines.set e (Engine.idle (s.engines[e].epoch + 1#8))
            passPending := true
            slots := t.slots, poolFree := t.poolFree, order := t.order, events := t.events }
      ∧ exec .zoneSet s
        = .next (t.answered 0x20#8 .ok
            ⟨biasCode s.stages[z].bias, byteOf s.stages[z].volumeCurrent, 0#8, 0#8⟩)
      ∧ t.zones[z] = { owner := none, claimant := none }
      ∧ t.stages[z] =
          { s.stages[z] with
            volumeTarget := s.mailbox.p[2].toNat, idleHold := s.mailbox.p[3].toNat, enabled := false
            idleTimer := none, fade := some ⟨0, s.stages[z].lastSample, .disable⟩ }
      ∧ (∀ w : Zone, w ≠ z → t.zones[w] = s.zoneUnclaimed z w ∧ t.stages[w] = s.stageUnclaimed z w)
      ∧ (∀ j : SlotId, j ≠ i → t.slots[j] = s.slotUnclaimed z j)
      ∧ (∀ outcome : Byte,
          ((a.state = .playing ∧ a.policy = .discard ∧ outcome = 6#8)
            ∨ (a.state = .stopping ∧ ∃ why ∈ a.stop,
                (why.reason, outcome) ∈ [(StopReason.cancelled, 2#8), (StopReason.aborted, 5#8)]
                ∨ (why.reason = .preempted ∧ why.cancelPending = true ∧ outcome = 2#8)
                ∨ (why.reason = .preempted ∧ why.cancelPending = false ∧ a.policy = .discard ∧ outcome = 3#8))) →
          t.slots[i] = Slot.free (a.generation + 1#4)
          ∧ t.poolFree = s.poolFree + a.segments.length ∧ t.order = s.order.filter (fun j => j != i)
          ∧ t.events = s.events.offer
              { kind := .finished, handle := s.handleAt i, tag := a.tag, d0 := outcome, d1 := byteOf a.underruns
                d2 := byteOf a.faultCount })
      ∧ ∀ preemptor : Byte,
          ((a.state = .playing ∧ preemptor = 0xFF#8)
            ∨ (a.state = .stopping ∧ ∃ why ∈ a.stop, why.reason = .preempted ∧ why.cancelPending = false
                ∧ preemptor = why.preemptor.getD 0xFF#8)) →
          (a.policy = .restart →
            t.slots[i] =
                { a with state := .queued, effZones := 0#4, engine := none, stop := none, startDue := false
                         playPos := ⟨0, 1⟩, resume := none }
            ∧ t.poolFree = s.poolFree ∧ t.order = s.order
            ∧ t.events = s.events.offer
                { kind := .preempted, handle := s.handleAt i, tag := a.tag, d0 := 1#8, d1 := preemptor, d2 := 0#8 })
          ∧ (a.policy = .resume →
              t.slots[i] =
                  { a with state := .queued, effZones := 0#4, engine := none, stop := none, startDue := false
                           resume := some a.playPos }
              ∧ t.poolFree = s.poolFree ∧ t.order = s.order
              ∧ t.events = s.events.offer
                  { kind := .preempted, handle := s.handleAt i, tag := a.tag, d0 := 2#8, d1 := preemptor
                    d2 := byteOf a.playPos.seg })

/-! ### Directory and port commands (chapters 5 and 7) -/

/-- R106, R107: an accepted DIR_LOAD advances the load number, stores the base, empties the table, becomes LOADING and
requests the header burst; DIR_LOAD's refusals, in their order, change nothing but the mailbox. That the progress
record's next index, entry count, checksum and running sum stand at 0 until the header arrives is the model's choice
(log 6, DESIGN CHOICE): the rules give them no value before the header is accepted. -/
def Obligations.DirLoadBegins : Prop :=
  ∀ s : State, s.takesCommand →
    (((∃ i : SlotId, s.slots[i].state.scheduled = true) ∨ s.dir.state = .loading ∨ s.port.claim.exclusive = true) →
      exec .dirLoad s = .next (s.answered 0x30#8 .busy ⟨0#8, 0#8, 0#8, 0#8⟩))
    ∧ ((∀ i : SlotId, s.slots[i].state.scheduled = false) → s.dir.state ≠ .loading →
        s.port.claim.exclusive = false →
        (s.mailbox.p[0] ≠ 0#8 → exec .dirLoad s = .next (s.answered 0x30#8 .badParam ⟨0#8, 0#8, 0#8, 0#8⟩))
        ∧ (s.mailbox.p[0] = 0#8 → ∀ base : FlashAddr,
            base.toNat = 256 * s.mailbox.p[1].toNat + 65536 * s.mailbox.p[2].toNat →
            exec .dirLoad s
              = .next (({ s with dir :=
                  { state := .loading, base := base, entries := [], invalid := 0
                    loadNumber := s.dir.loadNumber + 1#8
                    progress := some
                      { phase := .header, nextIndex := 0, count := 0, checksum := 0#16, sum := 0#16
                        request := some
                          { number := s.dir.loadNumber + 1#8, addr := base, count := 8, granted := false } } } } :
                  State).answered 0x30#8 .ok ⟨0#8, 0#8, 0#8, 0#8⟩)))

/-- R143: FLASH_CONFIG stores its four settings, in every port and claim state, or is refused with BAD_PARAM; a burst or
byte in progress and the remaining hold of a HELD claim stay as they are. -/
def Obligations.FlashConfigStoresSettings : Prop :=
  ∀ (s : State) (clock : FlashClock), s.takesCommand →
    ((s.mailbox.p[0].toNat, clock) ∈ [(0, FlashClock.half), (1, FlashClock.full)] → s.mailbox.p[2].toNat ≤ 1 →
      1 ≤ s.mailbox.p[3].toNat → s.mailbox.p[3].toNat ≤ 15 →
      exec .flashConfig s
        = .next (({ s with port :=
            { s.port with clock := clock, opcode := s.mailbox.p[1], dummy := s.mailbox.p[2].toNat
                          holdLimit := s.mailbox.p[3].toNat } } : State).answered 0x40#8 .ok ⟨0#8, 0#8, 0#8, 0#8⟩))
    ∧ ((1 < s.mailbox.p[0].toNat ∨ 1 < s.mailbox.p[2].toNat ∨ s.mailbox.p[3] = 0#8
          ∨ 15 < s.mailbox.p[3].toNat) →
        exec .flashConfig s = .next (s.answered 0x40#8 .badParam ⟨0#8, 0#8, 0#8, 0#8⟩))

/-- R148, R149: an accepted FLASH_CLAIM clears the three flags and waits at the arbiter; its refusals, in their order,
change nothing but the mailbox. -/
def Obligations.FlashClaimWaits : Prop :=
  ∀ (s : State) (mode : ClaimMode), s.takesCommand →
    (1 < s.mailbox.p[0].toNat → exec .flashClaim s = .next (s.answered 0x41#8 .badParam ⟨0#8, 0#8, 0#8, 0#8⟩))
    ∧ ((s.mailbox.p[0].toNat, mode) ∈ [(0, ClaimMode.shared), (1, ClaimMode.exclusive)] →
        (s.port.claim ≠ .none → exec .flashClaim s = .next (s.answered 0x41#8 .badState ⟨0#8, 0#8, 0#8, 0#8⟩))
        ∧ (s.port.claim = .none → mode = .exclusive →
            ((∃ i : SlotId, s.slots[i].state.scheduled = true) ∨ s.dir.state = .loading) →
            exec .flashClaim s = .next (s.answered 0x41#8 .busy ⟨0#8, 0#8, 0#8, 0#8⟩))
        ∧ (s.port.claim = .none →
            (mode = .exclusive →
              (∀ i : SlotId, s.slots[i].state.scheduled = false) ∧ s.dir.state ≠ .loading) →
            exec .flashClaim s
              = .next (({ s with port :=
                  { s.port with claim := .waiting mode, revoked := false, ptOverrun := false, notOwner := false } } :
                  State).answered 0x41#8 .ok ⟨0#8, 0#8, 0#8, 0#8⟩)))

/-- R154: FLASH_RELEASE by the claim it finds: BAD_STATE for NONE; a WAITING claim withdrawn; a HELD one ended with FCS
released; and under a byte in progress an end pending (RELEASE, where none was; an end already pending stays, log 13)
with the mailbox EXECUTING until the byte ends. -/
def Obligations.FlashReleaseEndsClaim : Prop :=
  ∀ s : State, s.takesCommand →
    (s.port.claim = .none → exec .flashRelease s = .next (s.answered 0x42#8 .badState ⟨0#8, 0#8, 0#8, 0#8⟩))
    ∧ (∀ mode, s.port.claim = .waiting mode →
        exec .flashRelease s
          = .next (({ s with port := { s.port with claim := .none } } : State).answered
              0x42#8 .ok ⟨0#8, 0#8, 0#8, 0#8⟩))
    ∧ (∀ mode hold ending, s.port.claim = .held mode hold ending → s.port.ptByte = none →
        exec .flashRelease s
          = .next (({ s with port := { s.port with claim := .none, fcs := false, state := .idle } } :
              State).answered 0x42#8 .ok ⟨0#8, 0#8, 0#8, 0#8⟩))
    ∧ (∀ mode hold ending, s.port.claim = .held mode hold ending → s.port.ptByte ≠ none →
        exec .flashRelease s
          = .next { s with
              port := { s.port with claim := .held mode hold (some (ending.getD .release)) }
              mailbox := { s.mailbox with
                executing := true, latched := s.mailbox.p, code := 0x42#8, overrun := false, foldedEnd := 0 }
              host := s.host.advance })

/-! ### Resets (every chapter's values after reset) -/

/-- R31, R54, R84, R120, R139, R158, R169, R180, R182: a soft reset, from a state in which the pool and the submission
order list keep their laws (R13, R15). -/
def Obligations.SoftResetQuietsThePart : Prop :=
  ∀ s : State, s.takesCommand → s.PoolLaw → s.OrderLaw →
    ∃ t : State, exec .softReset s = .next (t.answered 0x5A#8 .ok ⟨0#8, 0#8, 0#8, 0#8⟩)
      ∧ t = { s with
              poolFree := 256, order := [], zones := Vector.replicate 4 { owner := none, claimant := none }
              passPending := false, events := { s.events with records :=
                [{ kind := .resetDone, handle := 0#8, tag := 0#8, d0 := 3#8, d1 := 0#8, d2 := 0#8 }] }
              slots := t.slots, engines := t.engines, stages := t.stages, dir := t.dir, port := t.port }
      ∧ (∀ i : SlotId, t.slots[i]
          = if s.slots[i].state = .free then s.slots[i] else Slot.free (s.slots[i].generation + 1#4))
      ∧ (∀ e : EngineId, t.engines[e] = Engine.idle (s.engines[e].epoch + 1#8))
      ∧ (∀ z : Zone, t.stages[z] =
          if s.zones[z].owner.isSome then
            { s.stages[z] with fade := some ⟨0, s.stages[z].lastSample, .softReset⟩, idleTimer := none }
          else { s.stages[z] with
            fade := s.stages[z].fade.map fun f => { f with cause := .softReset }
            idleTimer := none
            bias := if s.stages[z].fade.isSome ∨ s.stages[z].bias = .off then s.stages[z].bias else .rampDown })
      ∧ t.dir = (if s.dir.state = .loading
          then { s.dir with state := .empty, entries := [], invalid := 0, progress := none } else s.dir)
      ∧ (s.port.claim = .none → t.port = s.port)
      ∧ (∀ mode, s.port.claim = .waiting mode → t.port = { s.port with claim := .none })
      ∧ (∀ mode hold ending, s.port.claim = .held mode hold ending →
          t.port = if s.port.ptByte = none then { s.port with claim := .none, fcs := false, state := .idle }
            else { s.port with claim := .held mode hold (some .reset) })

/-- R30, R54, R83, R119, R138, R157, R168, R182, 11.2: the part after a POR or a pin reset, whatever went before: every
record at its reset value and RESET_DONE of its kind alone in the queue. The waiting commands, the level of HCS and the
count of free choices are kept, HSDO floats, and a POR keeps the level of RESETn (the model's choices, logs 8, 9 and
23). -/
def Obligations.ResetsSetEveryRecord : Prop :=
  ∀ (s : State) (c : Instr) (kind : Byte) (low : Bool),
    (c, kind, low) ∈ [(Instr.powerOnReset, 1#8, s.resetnLow), (Instr.pinReset, 2#8, false)] →
    ∃ t : State, exec c s = .next t
      ∧ t.pending = s.pending ∧ t.choices = s.choices ∧ t.resetnLow = low
      ∧ t.host = { hcsLow := s.host.hcsLow, frame := none, hsdo := none }
      ∧ t.clock = { tick := 0, slew := 0, ticksDue := 0, slewsDue := 0 }
      ∧ (∀ i : SlotId, t.slots[i] = Slot.free 0#4) ∧ t.poolFree = 256 ∧ t.order = []
      ∧ (∀ z : Zone, t.zones[z] = { owner := none, claimant := none }) ∧ t.passPending = false
      ∧ (∀ z : Zone, t.stages[z] =
          { enabled := true, volumeTarget := 96, volumeCurrent := 96, idleHold := 50, bias := .off, level := 0
            idleTimer := none, fade := none, lastSample := 0, dac := 0 })
      ∧ (∀ e : EngineId, t.engines[e] = Engine.idle 0#8)
      ∧ t.dir = { state := .empty, base := 0#24, entries := [], invalid := 0, loadNumber := 0#8, progress := none }
      ∧ t.port = { state := .idle, burst := none, arriving := none, clock := .half, opcode := 0x03#8, dummy := 0
                   holdLimit := 4, claim := .none, fcs := false, ptByte := none, received := 0#8, revoked := false
                   ptOverrun := false, notOwner := false, pointer := 3 }
      ∧ t.events = { records := [{ kind := .resetDone, handle := 0#8, tag := 0#8, d0 := kind, d1 := 0#8, d2 := 0#8 }]
                     mask0 := 0x1F#5, mask1 := 0x7#3, irqEnable := false }
      ∧ t.mailbox = { executing := false, p := Vector.replicate 8 0#8, latched := Vector.replicate 8 0#8, code := 0#8
                      result := .ok, q := ⟨0#8, 0#8, 0#8, 0#8⟩, overrun := false, foldedEnd := 0 }
      ∧ t.irqnAsserted = false
      ∧ t.window = [0xA4#8, 0#8, 0#8, 0#8, 0#8, 0#8, 0#8, 0#8, 0#8, 0#8, 0#8, 0#8, 0#8, 0#8, 0#8, 0#8]
          ++ [16#8, 255#8] ++ List.replicate 14 0#8
          ++ [0#8, 0x1F#8, 0x07#8, 1#8, 1#8, 0#8, 0#8, kind] ++ List.replicate 11 0#8

/-- R168, R174: while RESETn is low IRQn is released, HSDO floats, and a fall of HCS starts no frame. That the part then
stands at its reset values with an empty queue, and that no row but the resets' and those of HCS has an effect, is
the model's choice (log 9, DEDUCED). -/
def Obligations.ResetnLowHoldsThePart : Prop :=
  ∀ s : State, ∃ t : State, exec .resetnHeldLow s = .next t
    ∧ t = { State.reset with
            pending := s.pending, choices := s.choices, resetnLow := true
            events := { State.reset.events with records := [] }
            host := { hcsLow := s.host.hcsLow, frame := none, hsdo := none } }
    ∧ t.irqnAsserted = false
    ∧ exec .hcsFall t = .next { t with host := { hcsLow := true, frame := none, hsdo := none } }
    ∧ exec .hcsRise t = .next { t with host := { hcsLow := false, frame := none, hsdo := none } }
    ∧ ∀ c : Instr, c ∉ [Instr.powerOnReset, .pinReset, .hcsFall, .hcsRise] → exec c t = .next t

/-! ### Mailbox and registers (chapters 8 and 9) -/

/-- R177, R179: a code that names no command ends with BAD_COMMAND and no block acts; a CMD write while EXECUTING, of
any of the eleven commands or as CMD_WRITE_DISCARDED, sets overrun and nothing else. In an IDLE mailbox CMD_WRITE_DISCARDED
stands for a write that fell before the end of a command that ended at its latch, until two frames have passed, and does
nothing at any other time (the model's own, log 4). -/
def Obligations.MailboxAnswersAlone : Prop :=
  ∀ (s : State) (code : Byte),
    (s.takesCommand →
      code ∉ [0x10#8, 0x11#8, 0x12#8, 0x13#8, 0x14#8, 0x20#8, 0x30#8, 0x40#8, 0x41#8, 0x42#8, 0x5A#8] →
      exec (.badCommand code) s = .next (s.answered code .badCommand ⟨0#8, 0#8, 0#8, 0#8⟩))
    ∧ (s.takesWrite 0x0A#6 → s.mailbox.executing = true →
        ∀ c ∈ [Instr.cmdWriteDiscarded code, .annOpen, .annAppend, .annSubmit, .annCancel, .annStatus, .zoneSet,
            .dirLoad, .flashConfig, .flashClaim, .flashRelease, .softReset, .registerWrite 0x0A#6 code],
          exec c s = .next { s with mailbox := { s.mailbox with overrun := true }, host := s.host.advance })
    ∧ (s.takesWrite 0x0A#6 → s.mailbox.executing = false →
        exec (.cmdWriteDiscarded code) s = .next (if s.mailbox.foldedEnd ≠ 0
          then { s with mailbox := { s.mailbox with overrun := true }, host := s.host.advance } else s))

/-- R171 to R175: a data byte written to P0 to P7 is kept there, one written to a read-only or reserved address is
ignored; in a write frame the frame goes on. A data byte of a read frame writes nothing, and the next register goes out
on HSDO; that this row stands for such a byte is the model's choice (log 18, DESIGN CHOICE). A byte of another address
than the open frame's, or in a frame whose address byte is not complete, is no byte of the row (the model's choice too,
log 3). -/
def Obligations.RegisterWriteReachesItsRegister : Prop :=
  ∀ (s : State) (a : RegAddr) (v : Byte),
    (∀ k : Fin 8, s.takesWrite a → a.toNat = k.val + 2 →
      exec (.registerWrite a v) s
        = .next { s with mailbox := { s.mailbox with p := s.mailbox.p.set k v }, host := s.host.advance })
    ∧ (s.takesWrite a →
        a.toNat ∉ [2, 3, 4, 5, 6, 7, 8, 9, 0x0A, 0x20, 0x21, 0x22, 0x2A, 0x30, 0x31] →
        exec (.registerWrite a v) s = .next { s with host := s.host.advance })
    ∧ (∀ (bits : Nat) (autoInc : Bool), s.resetnLow = false → s.host.frame = some ⟨bits, some ⟨true, autoInc, a⟩⟩ →
        exec (.registerWrite a v) s
          = .next { s with host :=
              { hcsLow := s.host.hcsLow
                frame := some ⟨bits + 8, some ⟨true, autoInc, if autoInc then a + 1#6 else a⟩⟩
                hsdo := some (s.readRegister (if autoInc then a + 1#6 else a)) } })
    ∧ (∀ f : HostFrame, s.host.frame = some f → (∀ fa ∈ f.address, fa.addr ≠ a) →
        exec (.registerWrite a v) s = .next s)

/-- R161, R166, R167, R183: a write of any value to EVPOP removes the head record, if there is one; a write to a mask
register replaces the enables it holds; a write to IRQC sets the IRQ enable from bit 0; IRQn is asserted exactly while
the enable is set and a record waits (RESETn high). EVPOP reads 00h. -/
def Obligations.QueueRegisterWrites : Prop :=
  ∀ (s : State) (v : Byte),
    (s.takesWrite 0x2A#6 →
      exec (.evpop v) s
        = .next { s with events := { s.events with records := s.events.records.drop 1 }, host := s.host.advance })
    ∧ (s.takesWrite 0x21#6 → ∀ m : BitVec 5, m.toNat = v.toNat % 32 →
        exec (.evmskWrite .evmsk0 v) s
          = .next { s with events := { s.events with mask0 := m }, host := s.host.advance })
    ∧ (s.takesWrite 0x22#6 → ∀ m : BitVec 3, m.toNat = v.toNat % 8 →
        exec (.evmskWrite .evmsk1 v) s
          = .next { s with events := { s.events with mask1 := m }, host := s.host.advance })
    ∧ (s.takesWrite 0x20#6 →
        exec (.irqcWrite v) s
          = .next { s with events := { s.events with irqEnable := decide (v.toNat % 2 = 1) }, host := s.host.advance })
    ∧ (s.irqnAsserted = true ↔ s.events.irqEnable = true ∧ s.events.records ≠ [] ∧ s.resetnLow = false)
    ∧ s.readRegister 0x2A#6 = 0#8

/-- R161, R162, R163: what the queue does with an event that a block offers. -/
def Obligations.QueueTakesOffers : Prop :=
  ∀ (q : EventQueue) (r : EventRecord),
    (q.enabled r.kind = false → q.offer r = q)
    ∧ (q.enabled r.kind = true →
        (∀ (before : List EventRecord) (o : EventRecord), q.records = before ++ [o] → o.kind = .overflow →
          (∀ x ∈ before, x.kind ≠ .overflow) →
          q.offer r = { q with records := before ++ [{ o with d0 := byteOf (min 255 (o.d0.toNat + 1)) }] })
        ∧ ((∀ x ∈ q.records, x.kind ≠ .overflow) → q.records.length = 31 →
            q.offer r = { q with records := q.records ++
              [{ kind := .overflow, handle := 0#8, tag := 0#8, d0 := 1#8, d1 := 0#8, d2 := 0#8 }] })
        ∧ ((∀ x ∈ q.records, x.kind ≠ .overflow) → q.records.length < 31 →
            q.offer r = { q with records := q.records ++ [r] }))
    ∧ q.enabled .resetDone = true ∧ q.enabled .overflow = true
    ∧ [q.enabled .started, q.enabled .mark, q.enabled .segmentFault, q.enabled .preempted, q.enabled .finished]
        = [q.mask0[0], q.mask0[1], q.mask0[2], q.mask0[3], q.mask0[4]]
    ∧ [q.enabled .zone, q.enabled .directory, q.enabled .claim] = [q.mask1[0], q.mask1[1], q.mask1[2]]

/-! ### Pass-through (chapter 7) -/

/-- R150, R151, R152: a write to PTCTL sets FCS by its select bit under a HELD claim with no byte in progress; a write
to PTDAT under a HELD claim with FCS asserted and no byte in progress starts a byte at the clock in force; in every
other case the write is ignored and sets NOT_OWNER or PT_OVERRUN. -/
def Obligations.PassThroughWrites : Prop :=
  ∀ (s : State) (v : Byte),
    (s.takesWrite 0x30#6 →
      (s.port.claim.isHeld = false →
        exec (.ptctlWrite v) s = .next { s with port := { s.port with notOwner := true }, host := s.host.advance })
      ∧ (s.port.claim.isHeld = true → s.port.ptByte ≠ none →
          exec (.ptctlWrite v) s = .next { s with port := { s.port with ptOverrun := true }, host := s.host.advance })
      ∧ (s.port.claim.isHeld = true → s.port.ptByte = none →
          exec (.ptctlWrite v) s
            = .next { s with
                port := { s.port with fcs := decide (v.toNat % 2 = 1) }, host := s.host.advance }))
    ∧ (s.takesWrite 0x31#6 →
        ((s.port.claim.isHeld = false ∨ s.port.fcs = false) →
          exec (.ptdatWrite v) s = .next { s with port := { s.port with notOwner := true }, host := s.host.advance })
        ∧ (s.port.claim.isHeld = true → s.port.fcs = true → s.port.ptByte ≠ none →
            exec (.ptdatWrite v) s
              = .next { s with port := { s.port with ptOverrun := true }, host := s.host.advance })
        ∧ (s.port.claim.isHeld = true → s.port.fcs = true → s.port.ptByte = none →
            exec (.ptdatWrite v) s
              = .next { s with
                  port := { s.port with ptByte := some { sent := v, clock := s.port.clock } }
                  host := s.host.advance }))

/-- R151, R153, R154, R158: the end of a pass-through byte keeps the bits taken in and completes the end pending on the
claim: REVOKE sets REVOKED and queues CLAIM (REVOKED, SHARED), RELEASE and RESET end the claim without them. A
FLASH_RELEASE that waited for the byte ends with OK; the statement says so of an EXECUTING mailbox, whichever end is
pending (the model's choices, log 20, and log 13 under RESET). A remaining hold that has run out revokes a SHARED claim at once with
no byte in progress, and leaves REVOKE pending under one. -/
def Obligations.PassThroughByteAndHoldEnd : Prop :=
  ∀ (s : State), s.resetnLow = false →
    (∀ (received : Byte) (mode : ClaimMode) (hold : Option Nat) (ending : Option EndPending)
      (port : Port) (events : EventQueue) (mailbox : Mailbox),
      s.port.ptByte ≠ none → s.port.claim = .held mode hold ending →
      port = (match ending with
        | none => { s.port with ptByte := none, received := received }
        | some .revoke =>
          { s.port with ptByte := none, received := received, claim := .none, fcs := false, state := .idle
                        revoked := true }
        | some _ =>
          { s.port with ptByte := none, received := received, claim := .none, fcs := false, state := .idle }) →
      events = (if ending = some .revoke then s.events.offer
          { kind := .claim, handle := 0#8, tag := 0#8, d0 := 2#8, d1 := 0#8, d2 := 0#8 } else s.events) →
      mailbox = (if s.mailbox.executing then
          { s.mailbox with executing := false, result := .ok, q := ⟨0#8, 0#8, 0#8, 0#8⟩ } else s.mailbox) →
      exec (.ptByteEnd received) s = .next { s with port := port, events := events, mailbox := mailbox })
    ∧ (s.port.claim = .held .shared (some 0) none →
        (s.port.ptByte = none →
          exec .holdExpiry s
            = .next { s with
                port := { s.port with claim := .none, fcs := false, state := .idle, revoked := true }
                events := s.events.offer
                  { kind := .claim, handle := 0#8, tag := 0#8, d0 := 2#8, d1 := 0#8, d2 := 0#8 } })
        ∧ (s.port.ptByte ≠ none →
            exec .holdExpiry s
              = .next { s with port := { s.port with claim := .held .shared (some 0) (some .revoke) } }))

/-! ### Frames, ticks and ramps (chapters 0, 3, 4 and 6) -/

/-- R1, R82, R123, R126, R127, R129, R132: a frame advances both counters, moves each bias ramp by one, and drives each
DAC with 2 × level + the audio term of the owner's sample, of the zone fade, or of nothing. The fallen ticks and slew
steps are counted (the model's own counts, log 10). A ramp that the frame brings to 1024 or 0, and a fade that it brings
to 256, stand there until their own rows end them (the model's choice, log 11, where R123 and R133 end them at that
frame). Nothing outside engines, stages, announcements, queue and clock changes, but that the frame is counted toward
the end of a command that ended at its latch (the model's own, log 4). -/
def Obligations.FrameDrivesZones : Prop :=
  ∀ s : State, s.resetnLow = false → s.BindingLaw →
    ∃ t : State, exec .frame s = .next t
      ∧ t.clock =
          { tick := if s.clock.tick < 47 then s.clock.tick + 1 else 0
            slew := if s.clock.slew < 7 then s.clock.slew + 1 else 0
            ticksDue := s.clock.ticksDue + (if s.clock.tick < 47 then 0 else 1)
            slewsDue := s.clock.slewsDue + (if s.clock.slew < 7 then 0 else 1) }
      ∧ t = { s with clock := t.clock, engines := t.engines, slots := t.slots, stages := t.stages, events := t.events
                     passPending := t.passPending, choices := t.choices
                     mailbox := { s.mailbox with foldedEnd := s.mailbox.foldedEnd - 1 } }
      ∧ (∀ e : EngineId, t.engines[e] = (s.engineFrame e).eng)
      ∧ ∀ (z : Zone) (level : Nat) (r : Stage),
          level = (match s.stages[z].bias with
            | .rampUp => min 1024 (s.stages[z].level + 1)
            | .rampDown => s.stages[z].level - 1
            | _ => s.stages[z].level) →
          r = { s.stages[z] with level := level } →
          (∀ (h : Handle) (e : EngineId) (x : Int), s.zones[z].owner = some h → s.engines[e].binding = some h →
            x = (s.engineFrame e).sample →
            t.stages[z] = { r with
              lastSample := x
              dac := (max 0 (min 4095 (2 * (level : Int)
                + ((x * s.stages[z].volumeCurrent).tdiv 128).tdiv 16))).toNat })
          ∧ (∀ f : ZoneFade, s.zones[z].owner = none → s.stages[z].fade = some f → f.position < 256 →
              t.stages[z] = { r with
                fade := some { f with position := f.position + 1 }
                dac := (max 0 (min 4095 (2 * (level : Int)
                  + ((((f.held * (256 - (f.position : Int))).tdiv 256) * s.stages[z].volumeCurrent).tdiv 128).tdiv
                      16))).toNat })
          ∧ (s.zones[z].owner = none → s.stages[z].fade = none →
              t.stages[z] = { r with dac := (max 0 (min 4095 (2 * (level : Int)))).toNat })

/-- R69, R70, R80, R85, R86, R87, R88, R90, R91, R96, R97, R99: the frames of a CLIP whose bytes are there. At the first
frame of a decoded sample, of a PCM8, PCM16 or SD4 clip, in the clip or at its entry, the bytes whose last use this is
leave the ring and the line starts from the sample before; a PRIMING engine whose exit test holds is RUNNING, a stall ends.
At each later frame the line goes on toward the sample and nothing else moves. The trim is applied; a FADING engine
scales the result by its fade factor, up to the 256th frame, and raises its fade position. The announcement's record does
not change. A code is decoded as Sd4CodeDecodes says. -/
def Obligations.FramePlaysClip : Prop :=
  ∀ (s : State) (e : EngineId) (g c : Engine) (h : Handle) (i : SlotId) (n k trim : Nat) (override : Option Nat)
    (entry : ClipEntry),
    s.resetnLow = false → s.BindingLaw → g = s.engines[e] → g.binding = some h → i = handleSlot h → c = g.inClip →
    (g.state = .running ∨ g.state = .stalled ∨ (g.state = .priming ∧ g.filled)
      ∨ (g.state = .fading ∧ g.fadePos < 256 ∧ (g.fadePriming = false ∨ g.filled))) →
    g.play.stage = .segment → (g.progress = .fresh ∨ g.progress = .begun) →
    s.slots[i].segments[g.play.seg]? = some (.clip n override false) → s.dir.entries[n]? = some entry →
    coversFrames entry.rate k → trim = override.getD entry.trim.toNat →
    ∃ t : State, exec .frame s = .next t ∧ t.slots[i] = s.slots[i]
      ∧ (∀ (prev sample : Int) (rest : List Byte) (after : Decoder), c.clipPos < entry.length →
          ((g.dec.phase = 0 ∧ prev = g.dec.previous) ∨ (g.dec.phase = k ∧ prev = g.dec.current)) →
          takesSample entry.coding c.dec (entry.length - c.clipPos) g.ring rest sample after →
          (s.engineFrame e).sample = g.handsOn (trimmedTo trim (prev + (sample - prev).tdiv k))
          ∧ t.engines[e] = { c with
              ring := rest, clipPos := c.clipPos + (g.ring.length - rest.length)
              dec := { after with current := sample, previous := prev, phase := 1 }
              state := if g.state = .fading then .fading else .running
              underrun := false, fadePos := g.fadeAfter
              fadePriming := if g.state = .fading then false else g.fadePriming
              request := t.engines[e].request })
      ∧ ((g.state = .running ∨ g.state = .fading) → g.progress = .begun → 1 ≤ g.dec.phase → g.dec.phase < k →
          (s.engineFrame e).sample
            = g.handsOn (trimmedTo trim
                (g.dec.previous + ((g.dec.current - g.dec.previous) * ((g.dec.phase : Int) + 1)).tdiv k))
          ∧ t.engines[e] = { g with
              dec := { g.dec with phase := g.dec.phase + 1 }, fadePos := g.fadeAfter
              fadePriming := if g.state = .fading then false else g.fadePriming
              request := t.engines[e].request })

/-- R70, R73, R78, R80, R85: an engine that needs ring bytes for the next decoded sample and has not all of them in the
ring is STALLED, or stays FADING: its output is zero, its cursors, clip position and decoder state hold, and an underrun
episode is counted where the underrun flag was clear. This is so in a clip, at the frame after the last one of a decoded
sample and at every frame of the stall; and at the entry into a CLIP behind a GAP, whose decoding starts from its first
byte. -/
def Obligations.FrameStallsWithoutBytes : Prop :=
  ∀ (s : State) (e : EngineId) (g : Engine) (h : Handle) (i : SlotId) (n k : Nat) (override : Option Nat)
    (entry : ClipEntry) (stalled : Engine),
    s.resetnLow = false → s.BindingLaw → g = s.engines[e] → g.binding = some h → i = handleSlot h →
    (g.state = .running ∨ g.state = .stalled ∨ (g.state = .fading ∧ g.fadePriming = false ∧ g.fadePos < 256)) →
    g.play.stage = .segment → s.dir.entries[n]? = some entry →
    (entry.rate.toNat, k) ∈ [(0, 6), (1, 4), (2, 3), (3, 2), (4, 1)] →
    stalled = { g with
      underrun := true
      state := if g.state = .fading then .fading else .stalled
      fadePos := if g.state = .fading then g.fadePos + 1 else g.fadePos } →
    ∃ t : State, exec .frame s = .next t
      ∧ (g.progress = .begun → s.slots[i].segments[g.play.seg]? = some (.clip n override false) →
          (g.dec.phase = 0 ∨ g.dec.phase = k) → g.clipPos < entry.length →
          lacksSample entry.coding (g.dec.blockPos == g.dec.blockLen) g.ring →
          (s.engineFrame e).sample = 0
          ∧ t.engines[e] = { stalled with request := t.engines[e].request }
          ∧ t.slots[i] = (if g.underrun then s.slots[i]
              else { s.slots[i] with underruns := min 255 (s.slots[i].underruns + 1) }))
      ∧ ∀ ms : Nat, (g.progress = .done ∨ (g.progress = .begun ∧ g.framesRemaining = 0)) → g.dec.phase = 0 →
          s.slots[i].segments[g.play.seg]? = some (.gap ms) →
          s.slots[i].segments[g.play.seg + 1]? = some (.clip n override false) → g.fetch.phase ≠ .waiting →
          lacksSample entry.coding true g.ring →
          (s.engineFrame e).sample = 0
          ∧ t.engines[e] = { stalled with
              play := { g.play with seg := g.play.seg + 1 }, progress := .begun, clipPos := 0
              dec := { g.dec with blockPos := 0, blockLen := 0, nibble := .low }
              request := t.engines[e].request }
          ∧ t.slots[i] = { s.slots[i] with
              playPos := if s.slots[i].state = .playing then ⟨g.play.seg + 1, g.play.pass⟩ else s.slots[i].playPos
              underruns := if g.underrun then s.slots[i].underruns else min 255 (s.slots[i].underruns + 1) }

/-- R69, R71, R76, R80, R98: a GAP's frames are zero; the first, which may also end PRIMING, loads 48 frames for each
millisecond, counts itself and zeroes the previous sample; each later one, and each of a repeat gap, counts one; all the
same in a fade. GAP_END and REPEAT_GAP_END, taken when none remain, mark the gap as over and change nothing else (the
mark is the model's, log 11). -/
def Obligations.GapsCountTheirFrames : Prop :=
  ∀ (s : State) (e : EngineId) (g : Engine) (h : Handle) (i : SlotId) (ms : Nat),
    s.resetnLow = false → s.BindingLaw → g = s.engines[e] → g.binding = some h → i = handleSlot h →
    ((g.play.stage = .segment ∧ s.slots[i].segments[g.play.seg]? = some (.gap ms)) ∨ g.play.stage = .repeatGap) →
    (((g.state = .running ∨ (g.state = .fading ∧ g.fadePriming = false ∧ g.fadePos < 256)) →
        g.progress = .begun → 0 < g.framesRemaining →
        (s.engineFrame e).sample = 0
        ∧ ∃ t : State, exec .frame s = .next t ∧ t.slots[i] = s.slots[i] ∧ t.engines[e].play = g.play
          ∧ t.engines[e].framesRemaining = g.framesRemaining - 1 ∧ t.engines[e].progress = .begun
          ∧ t.engines[e].ring = g.ring ∧ t.engines[e].state = g.state
          ∧ t.engines[e].fadePos = (if g.state = .fading then g.fadePos + 1 else g.fadePos))
    ∧ ((g.state = .priming ∨ g.state = .running ∨ (g.state = .fading ∧ g.fadePos < 256)) →
        g.progress = .fresh → g.play.stage = .segment →
        (s.engineFrame e).sample = 0
        ∧ ∃ t : State, exec .frame s = .next t ∧ t.slots[i] = s.slots[i] ∧ t.engines[e].play = g.play
          ∧ t.engines[e].framesRemaining = 48 * ms - 1 ∧ t.engines[e].progress = .begun
          ∧ t.engines[e].dec = { g.dec with previous := 0 }
          ∧ t.engines[e].state = (if g.state = .fading then .fading else .running)
          ∧ t.engines[e].fadePos = (if g.state = .fading then g.fadePos + 1 else g.fadePos))
    ∧ (g.progress = .begun → g.framesRemaining = 0 →
        (g.play.stage = .segment →
          exec (.gapEnd e) s = .next { s with engines := s.engines.set e { g with progress := .done } })
        ∧ (g.play.stage = .repeatGap →
          exec (.repeatGapEnd e) s = .next { s with engines := s.engines.set e { g with progress := .done } })))

/-- R7, R68, R70, R71, R72, R76, R77, R80, R97, R98: segment boundaries. The frame after a gap's last frame passes a MARK
that follows it, whose event a PLAYING announcement queues, and gives the first frame of the GAP behind the MARK (the
engine is the only one bound). The frame after the last one of a GAP or CLIP leaves it: past the last segment of the final
pass the play side is ENDED with output zero, and completion is reported while PLAYING, not while STOPPING; with passes
remaining it enters the next pass, with its repeat gap or without. In that frame it stands at the first frame of the GAP
or the first sample of the CLIP it enters, as it does at the frame after a repeat gap; the line's previous sample is
carried from CLIP to CLIP and zeroed by a gap. The play position is written while PLAYING. That a gap has given its last
frame is said by the model's mark of the play side's progress (log 11), whether or not its GAP_END was taken. -/
def Obligations.FrameCrossesBoundaries : Prop :=
  (∀ (s : State) (e : EngineId) (h : Handle) (i : SlotId) (k ms ms' : Nat) (value : Byte),
    s.resetnLow = false → s.BindingLaw → s.engines[e].binding = some h → i = handleSlot h →
    (∀ e' : EngineId, e' ≠ e → s.engines[e'].binding = none) →
    s.slots[i].state = .playing → s.engines[e].state = .running → s.engines[e].play.stage = .segment →
    k = s.engines[e].play.seg → s.engines[e].progress = .done → s.engines[e].fetch.phase = .done →
    s.slots[i].segments[k]? = some (.gap ms) → s.slots[i].segments[k + 1]? = some (.mark value) →
    s.slots[i].segments[k + 2]? = some (.gap ms') →
    ∃ t : State, exec .frame s = .next t
      ∧ t.events = s.events.offer
          { kind := .mark, handle := h, tag := s.slots[i].tag, d0 := value, d1 := byteOf (k + 1)
            d2 := byteOf s.engines[e].play.pass }
      ∧ t.slots[i] = { s.slots[i] with playPos := ⟨k + 2, s.engines[e].play.pass⟩ }
      ∧ t.engines[e].play = { s.engines[e].play with seg := k + 2 }
      ∧ t.engines[e].framesRemaining = 48 * ms' - 1 ∧ t.passPending = s.passPending)
  ∧ ∀ (s : State) (e : EngineId) (g moved : Engine) (h : Handle) (i : SlotId) (a : Slot) (d : Decoder) (pass : Nat),
    s.resetnLow = false → s.BindingLaw → g = s.engines[e] → g.binding = some h → i = handleSlot h → a = s.slots[i] →
    (g.state = .running ∨ (g.state = .fading ∧ g.fadePriming = false ∧ g.fadePos < 256)) →
    moved = { g with fadePos := g.fadeAfter } → pass = min 255 (g.play.pass + 1) →
    ∃ t : State, exec .frame s = .next t
      ∧ (g.leavesSegment s.dir a.segments d → g.play.seg + 1 = a.segments.length →
          (a.repeatCount ≠ 0 → a.repeatCount ≤ g.play.pass →
            (s.engineFrame e).sample = 0 ∧ t.slots[i] = a
            ∧ t.engines[e] = { moved with
                play := { g.play with stage := .ended }, dec := d
                completionDue := if a.state = .playing then true else g.completionDue
                request := t.engines[e].request }
            ∧ ((∀ e' : EngineId, e' ≠ e → s.engines[e'].binding = none) →
                t.events = s.events ∧ t.passPending = s.passPending))
          ∧ ((a.repeatCount = 0 ∨ g.play.pass < a.repeatCount) → a.repeatGap ≠ 0 →
            (s.engineFrame e).sample = 0
            ∧ t.slots[i] = { a with
                playPos := if a.state = .playing then ⟨0, pass⟩ else a.playPos, segments := t.slots[i].segments }
            ∧ t.engines[e] = { moved with
                play := { pass := pass, seg := 0, stage := .repeatGap }, progress := .begun, clipPos := 0
                framesRemaining := 480 * a.repeatGap - 1, dec := { d with previous := 0 }
                fetch := t.engines[e].fetch, request := t.engines[e].request }
            ∧ (g.fetch.phase ≠ .waiting →
                t.slots[i] = { a with playPos := t.slots[i].playPos }
                ∧ t.engines[e].fetch = { g.fetch with lap := .same })))
      ∧ ∀ (play : PlayCursor) (lap : Lap) (pos : Position),
          ((g.leavesSegment s.dir a.segments d ∧ g.play.seg + 1 < a.segments.length
              ∧ play = { g.play with seg := g.play.seg + 1 } ∧ lap = g.fetch.lap
              ∧ pos = (if a.state = .playing then ⟨g.play.seg + 1, g.play.pass⟩ else a.playPos))
            ∨ (g.leavesSegment s.dir a.segments d ∧ g.play.seg + 1 = a.segments.length ∧ a.repeatGap = 0
              ∧ (a.repeatCount = 0 ∨ g.play.pass < a.repeatCount)
              ∧ play = { pass := pass, seg := 0, stage := .segment } ∧ lap = .same
              ∧ pos = (if a.state = .playing then ⟨0, pass⟩ else a.playPos))
            ∨ (g.play.stage = .repeatGap ∧ g.gapPassed ∧ play = { g.play with stage := .segment } ∧ lap = g.fetch.lap
              ∧ pos = a.playPos ∧ d = g.dec)) →
          (∀ ms : Nat, a.segments[play.seg]? = some (.gap ms) →
            (s.engineFrame e).sample = 0
            ∧ t.slots[i] = { a with playPos := pos, segments := t.slots[i].segments }
            ∧ t.engines[e] = { moved with
                play := play, progress := .begun, clipPos := t.engines[e].clipPos, framesRemaining := 48 * ms - 1
                dec := { d with previous := 0 }, fetch := t.engines[e].fetch, request := t.engines[e].request }
            ∧ (g.fetch.phase ≠ .waiting →
                t.slots[i] = { a with playPos := pos } ∧ t.engines[e].fetch = { g.fetch with lap := lap }))
          ∧ ∀ (n k : Nat) (override : Option Nat) (entry : ClipEntry) (sample : Int) (rest : List Byte)
              (after : Decoder), g.fetch.phase ≠ .waiting → d.phase = 0 →
              a.segments[play.seg]? = some (.clip n override false) → s.dir.entries[n]? = some entry →
              coversFrames entry.rate k →
              takesSample entry.coding { d with blockPos := 0, blockLen := 0, nibble := .low } entry.length g.ring rest
                sample after →
              (s.engineFrame e).sample
                = g.handsOn (trimmedTo (override.getD entry.trim.toNat) (d.previous + (sample - d.previous).tdiv k))
              ∧ t.slots[i] = { a with playPos := pos }
              ∧ t.engines[e] = { moved with
                  play := play, progress := .begun, ring := rest, clipPos := g.ring.length - rest.length
                  dec := { after with current := sample, previous := d.previous, phase := 1 }
                  fetch := { g.fetch with lap := lap }, underrun := false, request := t.engines[e].request }

/-- R6, R73, R74, R75, R79, R80, R90: a faulted segment that the play side reaches, a CLIP whose fault mark is set (kind 1)
or an SD4 clip at a block header that fails its checks (kind 2), which loses the rest of the clip's bytes, its request and
the fetch cursor's place in it. The SEGMENT_FAULT is queued. The first fault is counted and play goes on, here to the
first frame of a GAP behind the segment. The second halts the play cursor: a PLAYING announcement becomes STOPPING with
reason ABORTED, its engine's fade starts and a pass is requested; a STOPPING one's reason PREEMPTED becomes ABORTED,
another stays, its fade goes on and no pass is requested. The engine is the only one bound. -/
def Obligations.FaultsSkipThenAbort : Prop :=
  ∀ (s : State) (e : EngineId) (g : Engine) (h : Handle) (i : SlotId) (a : Slot) (kind : Byte) (ring : List Byte)
    (fault : EventRecord) (kept : Option BurstRequest),
    s.resetnLow = false → s.BindingLaw → g = s.engines[e] → g.binding = some h → i = handleSlot h → a = s.slots[i] →
    (∀ e' : EngineId, e' ≠ e → s.engines[e'].binding = none) →
    (g.state = .running ∨ g.state = .stalled ∨ (g.state = .fading ∧ g.fadePriming = false ∧ g.fadePos < 256)) →
    g.play.stage = .segment →
    ((kind = 1#8 ∧ ring = g.ring ∧ ∃ n override, a.segments[g.play.seg]? = some (.clip n override true))
      ∨ (kind = 2#8 ∧ ∃ entry : ClipEntry, g.findsBadBlock s.dir a.segments entry
          ∧ ring = g.ring.drop (entry.length - g.clipPos))) →
    fault = { kind := .segmentFault, handle := h, tag := a.tag, d0 := byteOf g.play.seg, d1 := kind
              d2 := byteOf g.play.pass } →
    kept = (match g.request with
      | some r => if r.granted then some { r with dropped := r.dropped || decide (kind = 2#8 ∧ g.fetchesPlayed) } else none
      | none => none) →
    ∃ (t : State) (x : Engine), exec .frame s = .next t ∧ x = t.engines[e]
      ∧ (a.faultCount = 1 ∨ (a.faultCount = 0 ∧ ∃ ms, a.segments[g.play.seg + 1]? = some (.gap ms)) →
          (∀ r ∈ g.request, r.granted = true → x.request = kept)
          ∧ (kind = 2#8 → g.fetchesPlayed →
              (∀ r ∈ g.request, r.granted = false → ∀ r' ∈ x.request, r'.kind = .header)
              ∧ ∀ (q m : Nat) (override : Option Nat) (mark : Bool),
                  (q = g.play.seg + 1 ∨ (q = g.play.seg + 2 ∧ ∃ ms, a.segments[g.play.seg + 1]? = some (.gap ms))) →
                  a.segments[q]? = some (.clip m override mark) →
                  x.fetch = { g.fetch with seg := q, offset := 0, phase := .header })
          ∧ (kind = 1#8 ∨ ¬ g.fetchesPlayed → g.fetch.phase ≠ .waiting →
              x.fetch = g.fetch ∧ t.slots[i].segments = a.segments))
      ∧ (a.faultCount = 0 → ∀ ms : Nat, a.segments[g.play.seg + 1]? = some (.gap ms) →
          (s.engineFrame e).sample = 0 ∧ t.events = s.events.offer fault ∧ t.passPending = s.passPending
          ∧ t.slots[i] = { a with
              faultCount := 1, segments := t.slots[i].segments
              playPos := if a.state = .playing then ⟨g.play.seg + 1, g.play.pass⟩ else a.playPos }
          ∧ x = { g with
              play := { g.play with seg := g.play.seg + 1 }, progress := .begun, framesRemaining := 48 * ms - 1
              clipPos := 0, ring := ring, dec := { x.dec with previous := 0 }, underrun := false
              state := if g.state = .fading then .fading else .running
              fadePos := g.fadeAfter, fetch := x.fetch, request := x.request })
      ∧ (a.faultCount = 1 →
          (s.engineFrame e).sample = 0 ∧ t.events = s.events.offer fault
          ∧ x = { g with
              play := { g.play with stage := .halted }, progress := x.progress, clipPos := x.clipPos, ring := ring
              dec := x.dec, underrun := false, state := .fading, fadePriming := false
              fadePos := if a.state = .playing then 0 else g.fadePos + 1
              fetch := x.fetch, request := kept }
          ∧ (a.state = .playing →
              t.slots[i] = { a with
                state := .stopping, faultCount := 2, stop := some ⟨.aborted, false, none⟩
                segments := t.slots[i].segments }
              ∧ t.passPending = true)
          ∧ ∀ why : Stopping, a.state = .stopping → a.stop = some why →
              t.slots[i] = { a with
                faultCount := 2, segments := t.slots[i].segments
                stop := some (if why.reason = .preempted then ⟨.aborted, false, none⟩ else why) }
              ∧ t.passPending = s.passPending)

/-- R69, R80, R81: at a frame a PRIMING engine whose exit test does not hold stays PRIMING with output zero; a FADING
engine's fade position rises by 1 up to 256 whatever its play side does, and its output is zero with the play cursor
HALTED or ENDED and from 256 on. -/
def Obligations.PrimingAndFadeFrames : Prop :=
  ∀ (s : State) (e : EngineId) (h : Handle) (n : Nat) (override : Option Nat),
    s.resetnLow = false → s.BindingLaw → s.engines[e].binding = some h →
    ∃ t : State, exec .frame s = .next t
      ∧ (s.engines[e].state = .priming → s.engines[e].ring.length < 256 →
          (s.engines[e].fetch.phase = .header ∨ s.engines[e].fetch.phase = .data) →
          s.slots[handleSlot h].segments[s.engines[e].play.seg]? = some (.clip n override false) →
          (s.engineFrame e).sample = 0 ∧ t.engines[e].state = .priming
          ∧ t.engines[e].play = s.engines[e].play ∧ t.engines[e].ring = s.engines[e].ring)
      ∧ (s.engines[e].state = .fading → s.engines[e].fadePos < 256 →
          t.engines[e].fadePos = s.engines[e].fadePos + 1 ∧ t.engines[e].state = .fading
          ∧ ((s.engines[e].play.stage = .halted ∨ s.engines[e].play.stage = .ended) →
              (s.engineFrame e).sample = 0 ∧ t.engines[e].ring = s.engines[e].ring))
      ∧ (s.engines[e].state = .fading → s.engines[e].fadePos = 256 →
          (s.engineFrame e).sample = 0 ∧ t.engines[e] = s.engines[e])

/-- R1, R44, R125, R128, R153: a fallen TICK counts every armed deadline of a QUEUED or GRANTED announcement, every
running idle timer and the remaining hold of a HELD claim; a fallen VOLUME_SLEW_STEP moves every volume one step toward
its target. Where none has fallen nothing is taken (the model's counts, log 10). -/
def Obligations.TicksAndSlewSteps : Prop :=
  ∀ s : State, s.resetnLow = false →
    (0 < s.clock.ticksDue →
      ∃ t : State, exec .tick s = .next t
        ∧ t = { s with clock := { s.clock with ticksDue := s.clock.ticksDue - 1 }
                       slots := t.slots, stages := t.stages, port := t.port }
        ∧ (∀ i : SlotId, t.slots[i] =
            if s.slots[i].state = .queued ∨ s.slots[i].state = .granted then
              { s.slots[i] with deadline := s.slots[i].deadline.map fun n => n - 1 }
            else s.slots[i])
        ∧ (∀ z : Zone, t.stages[z] =
            { s.stages[z] with idleTimer := s.stages[z].idleTimer.map fun n => n - 1 })
        ∧ t.port = { s.port with claim := match s.port.claim with
            | .held mode (some n) ending => .held mode (some (n - 1)) ending
            | c => c })
    ∧ (0 < s.clock.slewsDue →
        ∃ t : State, exec .volumeSlewStep s = .next t
          ∧ t = { s with clock := { s.clock with slewsDue := s.clock.slewsDue - 1 }, stages := t.stages }
          ∧ ∀ z : Zone, t.stages[z] = { s.stages[z] with volumeCurrent :=
              if s.stages[z].volumeCurrent < s.stages[z].volumeTarget then s.stages[z].volumeCurrent + 1
              else if s.stages[z].volumeTarget < s.stages[z].volumeCurrent then s.stages[z].volumeCurrent - 1
              else s.stages[z].volumeCurrent })
    ∧ (s.clock.ticksDue = 0 → exec .tick s = .next s) ∧ (s.clock.slewsDue = 0 → exec .volumeSlewStep s = .next s)

/-- R123, R125, R137: an idle timer that has run out sends its zone to RAMP_DOWN; a ramp that has reached 1024 ends
READY with ZONE (READY), the claimant's start checked (R41) or the idle hold begun; a ramp that has reached 0 ends OFF with
ZONE (OFF). -/
def Obligations.TimersAndRampsEnd : Prop :=
  ∀ (s : State) (z : Zone), s.resetnLow = false →
    (s.stages[z].idleTimer = some 0 →
      exec (.idleTimerExpiry z) s
        = .next { s with stages := s.stages.set z { s.stages[z] with idleTimer := none, bias := .rampDown } })
    ∧ (s.stages[z].bias = .rampDown → s.stages[z].level = 0 →
        exec (.biasOff z) s
          = .next { s with
              stages := s.stages.set z { s.stages[z] with bias := .off }
              events := s.events.offer
                { kind := .zone, handle := 0#8, tag := 0#8, d0 := byteOf z.val, d1 := 0#8, d2 := 0#8 } })
    ∧ (s.stages[z].bias = .rampUp → s.stages[z].level = 1024 → s.stages[z].fade = none →
        s.zones[z] = { owner := none, claimant := none } →
        exec (.biasReady z) s
          = .next { s with
              stages := s.stages.set z
                { s.stages[z] with
                  bias := if s.stages[z].idleHold = 0 then .rampDown else .ready
                  idleTimer := if s.stages[z].idleHold = 0 ∨ s.stages[z].idleHold = 255 then none
                    else some (10 * s.stages[z].idleHold) }
              events := s.events.offer
                { kind := .zone, handle := 0#8, tag := 0#8, d0 := byteOf z.val, d1 := 2#8, d2 := 0#8 } })
    ∧ ∀ (h : Handle) (i : SlotId), s.stages[z].bias = .rampUp → s.stages[z].level = 1024 →
        s.zones[z].claimant = some h → i = handleSlot h →
        ∃ t : State, exec (.biasReady z) s = .next t
          ∧ t = { s with
              stages := s.stages.set z { s.stages[z] with bias := .ready }
              events := s.events.offer
                { kind := .zone, handle := 0#8, tag := 0#8, d0 := byteOf z.val, d1 := 2#8, d2 := 0#8 }
              slots := t.slots }
          ∧ (∀ j : SlotId, j ≠ i → t.slots[j] = s.slots[j])
          ∧ ∃ due : Bool, t.slots[i] = { s.slots[i] with startDue := due }
            ∧ (due = true ↔ s.slots[i].startDue = true
                ∨ (s.slots[i].state = .granted ∧ t.zonesReady s.slots[i].effZones))

/-! ### The Zone Scheduler (chapter 2) -/

/-- R35, R36, R37, R38, R39, R40, R41: first, the first candidate in order. Where its effective mask is not empty and every zone
of it has no owner, or a PLAYING owner of lower priority, or a STOPPING owner, the candidate is GRANTED when the pass has
finished: its effective zones are its effective mask, each names it as claimant, each PLAYING owner is STOPPING,
PREEMPTED by it, with its engine FADING, and its start is due where all its zones are ready. Otherwise it is not granted,
and loses its claims if it was GRANTED. Either way every other candidate that wants a zone of that mask is QUEUED, by
displacement or by the reservation. And any candidate, in a state whose owners and claimants agree (R32): it is GRANTED
where no zone of its mask is reserved by a candidate before it and each owner yields, one that the pass has made STOPPING
among them (R38), and loses its claims otherwise. The preemptor is this candidate unless one before it wants a zone of the
owner too. The zone sets are read by inZones. -/
def Obligations.PassGrantsInOrder : Prop :=
  (∀ (s : State) (i : SlotId) (mask : ZoneSet),
    s.resetnLow = false → s.passPending = true → s.order.Nodup → i ∈ s.order →
    (s.slots[i].state = .queued ∨ s.slots[i].state = .granted) → s.slots[i].priority ≤ 7 →
    (∀ j ∈ s.order, j ≠ i → (s.slots[j].state = .queued ∨ s.slots[j].state = .granted) →
      s.slots[j].priority < s.slots[i].priority
      ∨ (s.slots[j].priority = s.slots[i].priority ∧ s.order.idxOf i < s.order.idxOf j)) →
    (∀ z : Zone, inZones mask z = (inZones s.slots[i].zoneMask z && s.stages[z].enabled)) →
    ∃ t : State, exec .schedulingPass s = .next t
      ∧ (mask ≠ 0#4 →
          (∀ z : Zone, inZones mask z = true → ∀ h ∈ s.zones[z].owner,
            s.slots[handleSlot h].state = .stopping
            ∨ (s.slots[handleSlot h].state = .playing ∧ s.slots[handleSlot h].priority < s.slots[i].priority)) →
          t.slots[i].state = .granted ∧ t.slots[i].effZones = mask
          ∧ (t.slots[i].startDue = true ↔ s.slots[i].startDue = true ∨ t.zonesReady mask)
          ∧ (∀ z : Zone, inZones mask z = true → t.zones[z].claimant = some (s.handleAt i))
          ∧ (∀ z : Zone, inZones mask z = true → ∀ h ∈ s.zones[z].owner, s.slots[handleSlot h].state = .playing →
              t.slots[handleSlot h].state = .stopping
              ∧ t.slots[handleSlot h].stop = some ⟨.preempted, false, some (s.handleAt i)⟩
              ∧ ∀ e ∈ s.slots[handleSlot h].engine, t.engines[e].state = .fading ∧ t.engines[e].fadePos = 0))
      ∧ ((mask = 0#4 ∨ ∃ z : Zone, inZones mask z = true ∧ ∃ h ∈ s.zones[z].owner,
            s.slots[handleSlot h].state ≠ .stopping
            ∧ (s.slots[handleSlot h].state = .playing → s.slots[i].priority ≤ s.slots[handleSlot h].priority)) →
          t.slots[i] = s.slots[i].withoutClaims
          ∧ (s.slots[i].state = .granted → ∀ z : Zone, t.zones[z].claimant ≠ some (s.handleAt i)))
      ∧ ∀ j ∈ s.order, j ≠ i → (s.slots[j].state = .queued ∨ s.slots[j].state = .granted) →
          (∃ z : Zone, inZones mask z = true ∧ inZones s.slots[j].zoneMask z = true) →
          t.slots[j] = s.slots[j].withoutClaims
          ∧ (s.slots[j].state = .granted → ∀ z : Zone, t.zones[z].claimant ≠ some (s.handleAt j)))
  ∧ ∀ (s : State) (i : SlotId) (mask : ZoneSet),
    s.resetnLow = false → s.passPending = true → s.order.Nodup → s.ZoneLaw → i ∈ s.order →
    (s.slots[i].state = .queued ∨ s.slots[i].state = .granted) → s.slots[i].priority ≤ 7 →
    (∀ z : Zone, inZones mask z = (inZones s.slots[i].zoneMask z && s.stages[z].enabled)) →
    ∃ t : State, exec .schedulingPass s = .next t
      ∧ (s.passGrants t i mask →
          t.slots[i].state = .granted ∧ t.slots[i].effZones = mask
          ∧ (t.slots[i].startDue = true ↔ s.slots[i].startDue = true ∨ t.zonesReady mask)
          ∧ ∀ z : Zone, inZones mask z = true → t.zones[z].claimant = some (s.handleAt i)
            ∧ ∀ h ∈ s.zones[z].owner, s.slots[handleSlot h].state = .playing →
                t.slots[handleSlot h].state = .stopping
                ∧ (∀ e ∈ s.slots[handleSlot h].engine, t.engines[e].state = .fading ∧ t.engines[e].fadePos = 0)
                ∧ ∃ by_ : Handle, t.slots[handleSlot h].stop = some ⟨.preempted, false, some by_⟩
                  ∧ ((∀ (j : SlotId) (w : Zone), s.visitedBefore i j → s.zones[w].owner = some h →
                      inZones s.slots[j].zoneMask w = false) → by_ = s.handleAt i))
      ∧ (¬ s.passGrants t i mask →
          t.slots[i] = s.slots[i].withoutClaims
          ∧ (s.slots[i].state = .granted → ∀ z : Zone, t.zones[z].claimant ≠ some (s.handleAt i)))

/-- R34, R35, R37, R38, R40: what a pass leaves as it was: owners, pool, submission order list, directory, port,
mailbox, host port and clock; FREE, BUILDING and STOPPING slots; an engine that does not enter its fade; of every record
all but its state, effective zones, stopping fields and due start; and the whole record of a PLAYING announcement that
no candidate exceeds in priority (R36). The pass is no longer pending. -/
def Obligations.PassFrame : Prop :=
  ∀ s : State, s.resetnLow = false → s.passPending = true →
    ∃ t : State, exec .schedulingPass s = .next t ∧ t.passPending = false
      ∧ t = { s with passPending := false, slots := t.slots, zones := t.zones, stages := t.stages
                     engines := t.engines, events := t.events, choices := t.choices }
      ∧ (∀ z : Zone, t.zones[z].owner = s.zones[z].owner)
      ∧ (∀ e : EngineId, t.engines[e] = s.engines[e] ∨ t.engines[e] =
          { s.engines[e] with state := .fading, fadePos := 0, fadePriming := t.engines[e].fadePriming })
      ∧ (∀ v : SlotId, s.slots[v].state = .playing →
          (∀ j : SlotId, (s.slots[j].state = .queued ∨ s.slots[j].state = .granted) →
            s.slots[j].priority ≤ s.slots[v].priority) →
          t.slots[v] = s.slots[v])
      ∧ ∀ i : SlotId,
          ((s.slots[i].state = .free ∨ s.slots[i].state = .building ∨ s.slots[i].state = .stopping) →
            t.slots[i] = s.slots[i])
          ∧ t.slots[i] = { s.slots[i] with
              state := t.slots[i].state, effZones := t.slots[i].effZones, stop := t.slots[i].stop
              startDue := t.slots[i].startDue }

/-- R8, R41, R42, R57, R61, R62: a due start whose announcement is ready binds the lowest unbound engine at the play
position, makes the announcement PLAYING and the owner of its effective zones, disarms its deadline and queues STARTED;
standing at a CLIP, the engine asks for its header. A due start whose condition no longer holds is dropped. -/
def Obligations.StartBindsAnnouncement : Prop :=
  ∀ (s : State) (i : SlotId) (e : EngineId) (a : Slot),
    s.resetnLow = false → a = s.slots[i] → a.startDue = true →
    ((a.state = .granted ∧ ∀ z : Zone, inZones a.effZones z = true →
        s.zones[z].owner = none ∧ s.stages[z].bias = .ready ∧ s.stages[z].fade = none) →
      s.engines[e].binding = none → (∀ e' : EngineId, e' < e → s.engines[e'].binding ≠ none) →
      ∃ t : State, exec (.start i) s = .next t
        ∧ t = { s with slots := t.slots, engines := t.engines, zones := t.zones, stages := t.stages
                       events := s.events.offer
                         { kind := .started, handle := s.handleAt i, tag := a.tag, d0 := a.effZones.setWidth 8
                           d1 := byteOf a.playPos.seg, d2 := byteOf a.playPos.pass } }
        ∧ t.slots = s.slots.set i
            { a with state := .playing, engine := some e, deadline := none, resume := none, startDue := false
                     segments := a.segments.map (Segment.withFault false) }
        ∧ (∀ z : Zone, t.zones[z] = if inZones a.effZones z then { owner := some (s.handleAt i), claimant := none }
            else s.zones[z])
        ∧ (∀ z : Zone, t.stages[z] = if inZones a.effZones z then { s.stages[z] with idleTimer := none }
            else s.stages[z])
        ∧ (∀ e' : EngineId, e' ≠ e → t.engines[e'] = s.engines[e'])
        ∧ t.engines[e] = { Engine.idle s.engines[e].epoch with
            state := .priming, binding := some (s.handleAt i)
            play := { pass := a.playPos.pass, seg := a.playPos.seg, stage := .segment }
            fetch := t.engines[e].fetch, request := t.engines[e].request }
        ∧ ∀ n trim fault entry, a.segments[a.playPos.seg]? = some (.clip n trim fault) →
            s.dir.entries[n]? = some entry →
            t.engines[e].fetch
              = { pass := a.playPos.pass, seg := a.playPos.seg, offset := 0, phase := .header, lap := .same }
            ∧ t.engines[e].request = some
                { kind := .header, addr := entry.start, count := 8, epoch := s.engines[e].epoch, granted := false
                  dropped := false })
    ∧ ((a.state ≠ .granted ∨ ∃ z : Zone, inZones a.effZones z = true
          ∧ (s.zones[z].owner ≠ none ∨ s.stages[z].bias ≠ .ready ∨ s.stages[z].fade ≠ none)) →
        exec (.start i) s = .next { s with slots := s.slots.set i { a with startDue := false } })

/-- R47, R48, R49, R58, R81: ENGINE_FADE_DONE reports a fade whose position has reached 256 and withdraws a request not
granted. The FADE_END then taken releases the zones and the engine and requests a pass; the announcement is freed or
requeued by its stopping reason, policy and cancel pending. A released zone that is left idle starts its idle hold
(R125). No other announcement's record changes but for a start that becomes due, which is where a zone it waits for was
released and all its zones are ready (R41); that is said of states whose owners and claimants agree (R32). -/
def Obligations.FadeEndDisposes : Prop :=
  ∀ (s : State) (e : EngineId) (h : Handle) (i : SlotId) (a : Slot) (why : Stopping), s.resetnLow = false →
    (s.engines[e].state = .fading → s.engines[e].fadePos = 256 →
      exec (.engineFadeDone e) s
        = .next { s with
            engines := s.engines.set e { s.engines[e] with
              fadeEndDue := true
              request := match s.engines[e].request with
                | some r => if r.granted then some r else none
                | none => none } })
    ∧ (s.engines[e].fadeEndDue = true → s.engines[e].binding = some h → i = handleSlot h → s.handleAt i = h →
        a = s.slots[i] → a.state = .stopping → a.engine = some e → a.stop = some why →
        ∃ t : State, exec (.fadeEnd e) s = .next t
          ∧ t.passPending = true
          ∧ t.engines = s.engines.set e (Engine.idle (s.engines[e].epoch + 1#8))
          ∧ (∀ z : Zone, t.zones[z] = if s.zones[z].owner = some h then
              { owner := none, claimant := s.zones[z].claimant } else s.zones[z])
          ∧ (∀ z : Zone, t.stages[z] = if s.zones[z].owner = some h ∧ s.zones[z].claimant = none
              ∧ s.stages[z].bias = .ready ∧ s.stages[z].fade = none then s.stages[z].startIdle else s.stages[z])
          ∧ (∀ j : SlotId, j ≠ i → ∃ due : Bool, t.slots[j] = { s.slots[j] with startDue := due })
          ∧ (s.ZoneLaw → ∀ j : SlotId, j ≠ i → (t.slots[j].startDue = true ↔ s.slots[j].startDue = true
              ∨ (s.slots[j].state = .granted ∧ t.zonesReady s.slots[j].effZones
                ∧ ∃ z : Zone, inZones s.slots[j].effZones z = true ∧ s.zones[z].owner = some h)))
          ∧ t.dir = s.dir ∧ t.port = s.port ∧ t.mailbox = s.mailbox ∧ t.clock = s.clock ∧ t.host = s.host
          ∧ (∀ outcome : Byte,
              ((why.reason, outcome) ∈ [(StopReason.cancelled, 2#8), (StopReason.aborted, 5#8)]
                ∨ (why.reason = .preempted ∧ why.cancelPending = true ∧ outcome = 2#8)
                ∨ (why.reason = .preempted ∧ why.cancelPending = false ∧ a.policy = .discard ∧ outcome = 3#8)) →
              t.slots[i] = Slot.free (a.generation + 1#4) ∧ t.poolFree = s.poolFree + a.segments.length
              ∧ t.order = s.order.filter (fun j => j != i)
              ∧ t.events = s.events.offer
                  { kind := .finished, handle := h, tag := a.tag, d0 := outcome, d1 := byteOf a.underruns
                    d2 := byteOf a.faultCount })
          ∧ (why.reason = .preempted → why.cancelPending = false → a.policy = .restart →
              t.slots[i] = { a with state := .queued, playPos := ⟨0, 1⟩, resume := none, effZones := 0#4
                                    stop := none, engine := none, startDue := false }
              ∧ t.poolFree = s.poolFree ∧ t.order = s.order
              ∧ t.events = s.events.offer
                  { kind := .preempted, handle := h, tag := a.tag, d0 := 1#8, d1 := why.preemptor.getD 0xFF#8
                    d2 := 0#8 })
          ∧ (why.reason = .preempted → why.cancelPending = false → a.policy = .resume →
              t.slots[i] = { a with state := .queued, resume := some a.playPos, effZones := 0#4
                                    stop := none, engine := none, startDue := false }
              ∧ t.poolFree = s.poolFree ∧ t.order = s.order
              ∧ t.events = s.events.offer
                  { kind := .preempted, handle := h, tag := a.tag, d0 := 2#8, d1 := why.preemptor.getD 0xFF#8
                    d2 := byteOf a.playPos.seg }))

/-- R28, R41, R50, R58, R125: a completion taken for the PLAYING announcement bound to the reporting engine releases its
zones with no fade, unbinds the engine, frees the slot COMPLETED and requests a pass. A released zone that is left idle
starts its idle hold. A start becomes due where a zone that the announcement waits for was released and all its zones
are ready; that is said of states whose owners and claimants agree (R32). -/
def Obligations.CompletionFreesSlot : Prop :=
  ∀ (s : State) (e : EngineId) (h : Handle) (i : SlotId) (a : Slot), s.resetnLow = false →
    s.engines[e].completionDue = true → s.engines[e].binding = some h → i = handleSlot h → s.handleAt i = h →
    a = s.slots[i] → a.state = .playing → a.engine = some e →
    ∃ t : State, exec (.completion e) s = .next t
      ∧ t = { s with
          slots := t.slots, zones := t.zones, stages := t.stages, passPending := true
          engines := s.engines.set e (Engine.idle (s.engines[e].epoch + 1#8))
          poolFree := s.poolFree + a.segments.length, order := s.order.filter fun j => j != i
          events := s.events.offer
            { kind := .finished, handle := h, tag := a.tag, d0 := 1#8, d1 := byteOf a.underruns
              d2 := byteOf a.faultCount } }
      ∧ t.slots[i] = Slot.free (a.generation + 1#4)
      ∧ (∀ j : SlotId, j ≠ i → ∃ due : Bool, t.slots[j] = { s.slots[j] with startDue := due })
      ∧ (s.ZoneLaw → ∀ j : SlotId, j ≠ i → (t.slots[j].startDue = true ↔ s.slots[j].startDue = true
          ∨ (s.slots[j].state = .granted ∧ t.zonesReady s.slots[j].effZones
            ∧ ∃ z : Zone, inZones s.slots[j].effZones z = true ∧ s.zones[z].owner = some h)))
      ∧ ∀ z : Zone,
          t.zones[z] = (if s.zones[z].owner = some h then { owner := none, claimant := s.zones[z].claimant }
            else s.zones[z])
          ∧ t.stages[z] = (if s.zones[z].owner = some h ∧ s.zones[z].claimant = none ∧ s.stages[z].bias = .ready
              ∧ s.stages[z].fade = none then s.stages[z].startIdle else s.stages[z])

/-- R41, R125, R133: a zone fade whose position has reached 256 ends: with a claimant the zone stays READY and the
claimant's start is checked; without one it ramps down, disabled or after a soft reset, or becomes idle, enabled after a
disable. -/
def Obligations.ZoneFadeEndsByCause : Prop :=
  ∀ (s : State) (z : Zone) (f : ZoneFade), s.resetnLow = false → s.stages[z].fade = some f → f.position = 256 →
    s.stages[z].bias = .ready →
    (s.zones[z].claimant = none → (s.stages[z].enabled = false ∨ f.cause = .softReset) →
      exec (.zoneFadeEnd z) s
        = .next { s with
            stages := s.stages.set z { s.stages[z] with fade := none, bias := .rampDown, idleTimer := none } })
    ∧ (s.zones[z] = { owner := none, claimant := none } → s.stages[z].enabled = true → f.cause = .disable →
        exec (.zoneFadeEnd z) s
          = .next { s with
              stages := s.stages.set z { s.stages[z] with
                fade := none
                bias := if s.stages[z].idleHold = 0 then .rampDown else .ready
                idleTimer := if s.stages[z].idleHold = 0 ∨ s.stages[z].idleHold = 255 then none
                  else some (10 * s.stages[z].idleHold) } })
    ∧ ∀ h ∈ s.zones[z].claimant, ∃ (due : Bool) (t : State),
        exec (.zoneFadeEnd z) s = .next t
        ∧ t = { s with
            stages := s.stages.set z { s.stages[z] with fade := none }
            slots := s.slots.set (handleSlot h) { s.slots[handleSlot h] with startDue := due } }
        ∧ (due = true ↔ s.slots[handleSlot h].startDue = true
            ∨ (s.slots[handleSlot h].state = .granted ∧ t.zonesReady s.slots[handleSlot h].effZones))

/-! ### The arbiter and the arrivals (chapters 3, 5 and 7) -/

/-- R116, R141, R142, R145, R146, R149: at an IDLE port a WAITING claim is granted first; otherwise the waiting engine
that comes first after the round-robin pointer, which then names it; otherwise the loader. Under a HELD claim nothing is
granted. Beside a burst a grant is taken as at the IDLE port that the burst leaves at its end, with the burst's data
still to arrive; none is taken where no requester waits or the data of an earlier burst is still to arrive (the model's
form of R142's two orders, log 26). -/
def Obligations.PortGrantsInOrder : Prop :=
  ∀ s : State, s.resetnLow = false →
    (s.port.state = .hostHeld → exec .portGrant s = .next s)
    ∧ ((s.port.state = .engineBurst ∨ s.port.state = .directoryBurst) →
        ((s.port.arriving ≠ none ∨ ((∀ mode, s.port.claim ≠ .waiting mode) ∧ (∀ e : EngineId, ¬ s.engines[e].waits)
            ∧ ∀ p ∈ s.dir.progress, ∀ r ∈ p.request, r.granted = true)) → exec .portGrant s = .next s)
        ∧ (s.port.arriving = none → ((∃ mode, s.port.claim = .waiting mode) ∨ (∃ e : EngineId, s.engines[e].waits)
            ∨ ∃ p ∈ s.dir.progress, ∃ r ∈ p.request, r.granted = false) →
            exec .portGrant s = exec .portGrant
              { s with port :=
                { s.port with state := .idle, burst := none, fcs := false, arriving := s.port.burst } }))
    ∧ (s.port.state = .idle →
        (∀ mode, s.port.claim = .waiting mode →
          exec .portGrant s
            = .next { s with
                port := { s.port with
                  state := .hostHeld, fcs := false
                  claim := .held mode (if mode = .shared then some s.port.holdLimit else none) none }
                dir := if mode = .exclusive then { s.dir with state := .stale } else s.dir
                events := s.events.offer
                  { kind := .claim, handle := 0#8, tag := 0#8, d0 := 1#8
                    d1 := if mode = .exclusive then 1#8 else 0#8, d2 := 0#8 } })
        ∧ ((∀ mode, s.port.claim ≠ .waiting mode) →
            (∀ (e : EngineId) (r : BurstRequest), s.engines[e].request = some r → r.granted = false →
              (∀ e' : EngineId, s.engines[e'].waits → s.port.turn e ≤ s.port.turn e') →
              exec .portGrant s
                = .next { s with
                    port := { s.port with
                      state := .engineBurst, fcs := true, pointer := e
                      burst := some
                        { requester := .engine e r.epoch, addr := r.addr, count := r.count, received := []
                          clock := s.port.clock, opcode := s.port.opcode, dummy := s.port.dummy } }
                    engines := s.engines.set e
                      { s.engines[e] with
                        request := some { r with granted := true }
                        reserved := if r.kind = .data then r.count else s.engines[e].reserved } })
            ∧ ((∀ e : EngineId, ¬ s.engines[e].waits) →
                (∀ (p : LoadProgress) (r : LoaderRequest), s.dir.progress = some p → p.request = some r →
                  r.granted = false →
                  exec .portGrant s
                    = .next { s with
                        port := { s.port with
                          state := .directoryBurst, fcs := true
                          burst := some
                            { requester := .loader r.number, addr := r.addr, count := r.count, received := []
                              clock := s.port.clock, opcode := s.port.opcode, dummy := s.port.dummy } }
                        dir := { s.dir with progress := some { p with request := some { r with granted := true } } } })
                ∧ ((∀ p ∈ s.dir.progress, ∀ r ∈ p.request, r.granted = true) → exec .portGrant s = .next s))))

/-- R59, R61, R63, R64, R66, R105, R142: what a clip header must hold; and the arrival of an engine burst, which leaves
the port IDLE with FCS released unless the burst had ended before. Its data is discarded where the token's epoch differs;
accepted as a header, it takes the fetch cursor to DATA at offset 0; refused as one, it sets the segment's fault mark,
counts nothing, and the cursor enters a CLIP that follows; as data, it joins the ring and returns reserved to 0, or is
dropped; and where it completes the clip, the cursor enters a CLIP that follows, or is DONE behind the last segment of
the final pass. The request goes, and the next one is made at once where R61 asks for one. -/
def Obligations.EngineBurstArrives : Prop :=
  (∀ (b0 b1 b2 b3 b4 b5 b6 b7 : Byte) (entry : ClipEntry),
    headerMatches [b0, b1, b2, b3, b4, b5, b6, b7] entry = true ↔
      b0 = 0xC5#8 ∧ b1 = 0x3A#8 ∧ b7 = b0 ^^^ b1 ^^^ b2 ^^^ b3 ^^^ b4 ^^^ b5 ^^^ b6 ∧ b2 = entry.coding
        ∧ b3 = entry.rate ∧ b4.toNat + 256 * b5.toNat + 65536 * b6.toNat = entry.length)
  ∧ ∀ (s : State) (data : List Byte) (b : Burst) (e : EngineId) (epoch : BitVec 8) (port : Port) (g : Engine),
    s.resetnLow = false → s.port.delivers b port → b.requester = .engine e epoch → b.received = [] →
    data.length = b.count → g = s.engines[e] →
    (g.epoch ≠ epoch → exec (.engineBurstArrival data) s = .next { s with port := port })
    ∧ ∀ (h : Handle) (i : SlotId) (r : BurstRequest) (n : Nat) (trim : Option Nat) (fault : Bool)
        (entry : ClipEntry),
        g.epoch = epoch → g.binding = some h → i = handleSlot h →
        g.request = some r → s.slots[i].segments[g.fetch.seg]? = some (.clip n trim fault) →
        s.dir.entries[n]? = some entry →
        ∃ (t : State) (x : Engine), exec (.engineBurstArrival data) s = .next t ∧ x = t.engines[e]
          ∧ t = { s with port := port, engines := t.engines, slots := t.slots }
          ∧ (∀ e' : EngineId, e' ≠ e → t.engines[e'] = s.engines[e'])
          ∧ (∀ j : SlotId, j ≠ i → t.slots[j] = s.slots[j])
          ∧ t.slots[i] = { s.slots[i] with segments := t.slots[i].segments }
          ∧ x = { g with ring := x.ring, reserved := x.reserved, fetch := x.fetch, request := x.request }
          ∧ (r.kind = .header → g.fetch.phase = .header → headerMatches data entry = true →
              t.slots[i] = s.slots[i]
              ∧ x.fetch = { g.fetch with phase := .data, offset := 0 } ∧ x.ring = g.ring)
          ∧ (r.kind = .header → headerMatches data entry = false → g.fetch.lap = .same → g.play.seg ≤ g.fetch.seg →
              t.slots[i].segments[g.fetch.seg]? = some (.clip n trim true) ∧ x.ring = g.ring
              ∧ ∀ m trim' fault', s.slots[i].segments[g.fetch.seg + 1]? = some (.clip m trim' fault') →
                  x.fetch = { g.fetch with seg := g.fetch.seg + 1, offset := 0, phase := .header })
          ∧ (r.kind = .data → r.dropped = false → g.fetch.offset + data.length < entry.length →
              t.slots[i] = s.slots[i] ∧ x.ring = g.ring ++ data ∧ x.reserved = 0
              ∧ x.fetch = { g.fetch with offset := g.fetch.offset + data.length })
          ∧ (r.kind = .data → r.dropped = false → g.fetch.offset + data.length = entry.length →
              x.ring = g.ring ++ data ∧ x.reserved = 0
              ∧ (∀ m trim' fault', g.fetch.lap = .same →
                  s.slots[i].segments[g.fetch.seg + 1]? = some (.clip m trim' fault') →
                  x.fetch = { g.fetch with seg := g.fetch.seg + 1, offset := 0, phase := .header }
                  ∧ t.slots[i].segments[g.fetch.seg + 1]? = some (.clip m trim' false))
              ∧ (s.slots[i].segments.length = g.fetch.seg + 1 → s.slots[i].repeatCount ≠ 0 →
                  s.slots[i].repeatCount ≤ g.fetch.pass → t.slots[i] = s.slots[i] ∧ x.fetch.phase = .done))
          ∧ (r.kind = .data → r.dropped = true →
              t.slots[i] = s.slots[i] ∧ x.ring = g.ring ∧ x.reserved = 0 ∧ x.fetch = g.fetch)
          ∧ ((x.fetch.phase = .waiting ∨ x.fetch.phase = .done) → x.request = none)
          ∧ ∀ (m : Nat) (trim' : Option Nat) (fault' : Bool) (entry' : ClipEntry),
              (x.fetch.phase = .header ∨ x.fetch.phase = .data) →
              t.slots[i].segments[x.fetch.seg]? = some (.clip m trim' fault') → s.dir.entries[m]? = some entry' →
              x.request = (if x.ring.length + x.reserved ≤ 448 ∧ g.play.stage ≠ .halted ∧ g.fadePos < 256 then
                  some (if x.fetch.phase = .data then
                    { kind := .data, addr := entry'.start + 8#24 + BitVec.ofNat 24 x.fetch.offset
                      count := min 64 (entry'.length - x.fetch.offset), epoch := epoch, granted := false
                      dropped := false }
                  else
                    { kind := .header, addr := entry'.start, count := 8, epoch := epoch, granted := false
                      dropped := false })
                else none)

/-- R103, R108, R109, R142: the loader's header burst: discarded where the load was abandoned or its number differs;
failed by the first of its three checks that does not hold; otherwise the first entry burst is requested. -/
def Obligations.DirectoryHeaderArrives : Prop :=
  ∀ (s : State) (b0 b1 b2 b3 b4 b5 b6 b7 : Byte) (b : Burst) (number : BitVec 8) (count : Nat) (port : Port),
    s.resetnLow = false → s.port.delivers b port → b.requester = .loader number → b.received = [] → b.count = 8 →
    count = b4.toNat + 256 * b5.toNat →
    ((s.dir.state ≠ .loading ∨ s.dir.loadNumber ≠ number) →
      exec (.loaderBurstArrival [b0, b1, b2, b3, b4, b5, b6, b7]) s = .next { s with port := port })
    ∧ ∀ p : LoadProgress, s.dir.state = .loading → s.dir.loadNumber = number → s.dir.progress = some p →
        p.phase = .header →
        (∀ code : Byte,
          (((b0 ≠ 0xA2#8 ∨ b1 ≠ 0x4C#8) ∧ code = 1#8)
            ∨ (b0 = 0xA2#8 ∧ b1 = 0x4C#8 ∧ b2 ≠ 1#8 ∧ code = 2#8)
            ∨ (b0 = 0xA2#8 ∧ b1 = 0x4C#8 ∧ b2 = 1#8 ∧ (count = 0 ∨ 512 < count) ∧ code = 3#8)) →
          exec (.loaderBurstArrival [b0, b1, b2, b3, b4, b5, b6, b7]) s
            = .next { s with
                port := port
                dir := { s.dir with state := .failed, entries := [], invalid := 0, progress := none }
                events := s.events.offer
                  { kind := .directory, handle := 0#8, tag := 0#8, d0 := code, d1 := 0#8, d2 := 0#8 } })
        ∧ (b0 = 0xA2#8 → b1 = 0x4C#8 → b2 = 1#8 → 1 ≤ count → count ≤ 512 →
            exec (.loaderBurstArrival [b0, b1, b2, b3, b4, b5, b6, b7]) s
              = .next { s with
                  port := port
                  dir := { s.dir with
                    progress := some
                      { phase := .entries, nextIndex := 0, count := count
                        checksum := BitVec.ofNat 16 (b6.toNat + 256 * b7.toNat), sum := 0#16
                        request := some
                          { number := number, addr := s.dir.base + 8#24, count := 12 * min 5 count
                            granted := false } } } })

/-- R104, R108, R110, R112, R114: how the twelve bytes of an entry are read; and an entry burst, which stores and
judges its entries in order and sums every byte. Below the header's count the next run of up to five is requested; at
it the load ends VALID where the sum matches the checksum, and FAILED with an emptied table where it does not, with
its DIRECTORY event. -/
def Obligations.DirectoryEntriesArrive : Prop :=
  (∀ (b0 b1 b2 b3 b4 b5 b6 b7 b8 b9 b10 b11 : Byte) (start : FlashAddr),
    start.toNat = b0.toNat + 256 * b1.toNat + 65536 * b2.toNat →
    entryOfBytes [b0, b1, b2, b3, b4, b5, b6, b7, b8, b9, b10, b11]
        = { start := start, length := b3.toNat + 256 * b4.toNat + 65536 * b5.toNat, coding := b6, rate := b7, trim := b8
            valid := false }
      ∧ byteAt [b0, b1, b2, b3, b4, b5, b6, b7, b8, b9, b10, b11] 9 = b9)
  ∧ ∀ (s : State) (chunks : List (List Byte)) (b : Burst) (p : LoadProgress) (records : List ClipEntry)
    (invalid total : Nat) (port : Port),
    s.resetnLow = false → s.port.delivers b port → b.requester = .loader s.dir.loadNumber → b.received = [] →
    b.count = 12 * chunks.length → (∀ c ∈ chunks, c.length = 12) →
    s.dir.state = .loading → s.dir.progress = some p → p.phase = .entries →
    records = s.dir.entries ++ (chunks.map fun c =>
      { entryOfBytes c with valid := entryValid (entryOfBytes c) (byteAt c 9) }) →
    invalid = s.dir.invalid + (chunks.filter fun c => !entryValid (entryOfBytes c) (byteAt c 9)).length →
    total = p.sum.toNat + (chunks.flatten.map BitVec.toNat).sum →
    (records.length < p.count →
      exec (.loaderBurstArrival chunks.flatten) s
        = .next { s with
            port := port
            dir := { s.dir with
              entries := records, invalid := invalid
              progress := some
                { p with
                  nextIndex := records.length, sum := BitVec.ofNat 16 total
                  request := some
                    { number := s.dir.loadNumber
                      addr := s.dir.base + BitVec.ofNat 24 (8 + 12 * records.length)
                      count := 12 * min 5 (p.count - records.length), granted := false } } } })
    ∧ (records.length = p.count → p.checksum.toNat = total % 65536 →
        exec (.loaderBurstArrival chunks.flatten) s
          = .next { s with
              port := port
              dir := { s.dir with state := .valid, entries := records, invalid := invalid, progress := none }
              events := s.events.offer
                { kind := .directory, handle := 0#8, tag := 0#8
                  d0 := byteOf (16 * (records.length / 256 % 4) + 64 * (invalid / 256 % 4))
                  d1 := byteOf records.length, d2 := byteOf invalid } })
    ∧ (records.length = p.count → p.checksum.toNat ≠ total % 65536 →
        exec (.loaderBurstArrival chunks.flatten) s
          = .next { s with
              port := port
              dir := { s.dir with state := .failed, entries := [], invalid := 0, progress := none }
              events := s.events.offer
                { kind := .directory, handle := 0#8, tag := 0#8
                  d0 := byteOf (4 + 16 * (records.length / 256 % 4) + 64 * (invalid / 256 % 4))
                  d1 := byteOf records.length, d2 := byteOf invalid } })

/-- R111, R185: when an entry is valid, by its own fields and bit 0 of the flags. -/
def Obligations.EntryJudgement : Prop :=
  ∀ (entry : ClipEntry) (flags : Byte),
    entryValid entry flags = true ↔
      flags.toNat % 2 = 1 ∧ (entry.coding = 1#8 ∨ entry.coding = 2#8 ∨ entry.coding = 3#8)
        ∧ entry.rate.toNat ≤ 4 ∧ entry.trim.toNat ≤ 31 ∧ entry.length ≠ 0
        ∧ entry.start.toNat + 8 + entry.length ≤ 0x1000000
        ∧ ¬ (entry.coding = 2#8 ∧ entry.length % 2 = 1)
        ∧ ¬ (entry.coding = 3#8
            ∧ (entry.length % 128 = 1 ∨ entry.length % 128 = 2 ∨ entry.length % 128 = 3 ∨ entry.length % 128 = 4))

/-! ### The host port (chapter 9) -/

/-- R170, R171, R172, R174: a fall of HCS begins a frame and puts STAT on HSDO; the address byte fixes the direction, the
auto-increment and the address, and HSDO then carries the addressed register in a read frame and 00h in a write frame; a
rise of HCS ends the frame at whatever point it has reached. R173: after a data byte of a write frame the current address
has risen by 1, from 3Fh to 00h, with auto-increment set, and is the same with it clear. -/
def Obligations.HostFrames : Prop :=
  ∀ (s : State) (byte value : Byte) (a b : RegAddr),
    (s.resetnLow = false → s.host.hcsLow = false →
      exec .hcsFall s
        = .next { s with host := { hcsLow := true, frame := some { bits := 0, address := none }
                                   hsdo := some s.stat } })
    ∧ (∀ bits : Nat, s.resetnLow = false → s.host.frame = some { bits := bits, address := none } →
        a.toNat = byte.toNat % 64 →
        exec (.addressByte byte) s
          = .next { s with host :=
              { hcsLow := s.host.hcsLow
                frame := some
                  { bits := bits + 8
                    address := some { read := decide (128 ≤ byte.toNat), autoInc := decide (64 ≤ byte.toNat % 128)
                                      addr := a } }
                hsdo := some (if 128 ≤ byte.toNat then s.readRegister a else 0#8) } })
    ∧ (∀ (bits : Nat) (autoInc : Bool), s.resetnLow = false → s.host.frame = some ⟨bits, some ⟨false, autoInc, a⟩⟩ →
        b.toNat = (if autoInc then (a.toNat + 1) % 64 else a.toNat) →
        ∃ t : State, exec (.registerWrite a value) s = .next t
          ∧ t.host = { s.host with frame := some ⟨bits + 8, some ⟨false, autoInc, b⟩⟩ })
    ∧ exec .hcsRise s = .next { s with host := { hcsLow := false, frame := none, hsdo := none } }

/-! ### Decoding (chapter 4) -/

/-- R92, R93, R94, R95: one SD4 code: the step of the present index, the diff, the predictor's move held to the range of
a sample, and the index adjusted by the magnitude and held to 0 to 79. -/
def Obligations.Sd4CodeDecodes : Prop :=
  ∀ (d : Decoder) (code : BitVec 4) (m base step diff : Nat) (adjust : Int),
    d.stepIndex ≤ 79 → m = code.toNat % 8 →
    (d.stepIndex % 8, base) ∈ [(0, 16), (1, 18), (2, 20), (3, 22), (4, 24), (5, 27), (6, 30), (7, 33)] →
    step = base * 2 ^ (d.stepIndex / 8) → diff = (2 * m + 1) * step / 8 →
    (m, adjust) ∈ [(0, -1), (1, -1), (2, -1), (3, -1), (4, 2), (5, 4), (6, 6), (7, 8)] →
    d.decodeCode code = { d with
      predictor := max (-32768) (min 32767 (if code.toNat < 8 then d.predictor + diff else d.predictor - diff))
      stepIndex := (max 0 (min 79 ((d.stepIndex : Int) + adjust))).toNat }

/-- R97, R99: the line ends exactly on its sample, a rise and a fall of one size stand symmetrically about the sample
before, a trim of 16 leaves a sample as it is, and every trimmed value lies in the range of a sample. -/
def Obligations.LineAndTrim : Prop :=
  (∀ (prev s : Int) (k : Nat), 0 < k → converted prev s k k = s)
  ∧ (∀ (prev move : Int) (j k : Nat),
      converted prev (prev + move) j k - prev = -(converted prev (prev - move) j k - prev))
  ∧ (∀ x : Int, -32768 ≤ x → x ≤ 32767 → trimmed x 16 = x)
  ∧ ∀ (x : Int) (t : Nat), -32768 ≤ trimmed x t ∧ trimmed x t ≤ 32767

/-! ### The laws, kept by every step -/

/-- R162: every step keeps the law of the event queue. -/
def Obligations.EveryStepKeepsEventLaw : Prop := ∀ s t : State, s.EventLaw → step s = .next t → t.EventLaw

/-- R1, R2, R7, R8, R9, R10, R13, R15: every step keeps the laws of the Segment Pool and of the submission order list,
the clock's counters in their ranges, and every announcement's fields in theirs, its segment records, play position and
resume point among them. -/
def Obligations.EveryStepKeepsTableLaws : Prop :=
  ∀ s t : State, step s = .next t →
    (s.PoolLaw → s.OrderLaw → t.PoolLaw ∧ t.OrderLaw) ∧ (s.RangeLaw → t.RangeLaw)

/-- R116, R156: every step keeps scheduled announcements apart from EXCLUSIVE claims and beside a VALID directory. -/
def Obligations.EveryStepKeepsDirectoryLaw : Prop :=
  ∀ s t : State, s.DirectoryLaw → step s = .next t → t.DirectoryLaw

/-- R140, R145, R154: every step keeps the law of the port, and the mailbox EXECUTING only beside a byte in progress
that a FLASH_RELEASE waits for. -/
def Obligations.EveryStepKeepsPortLaw : Prop :=
  ∀ s t : State, s.PortLaw → s.MailboxLaw → step s = .next t → t.PortLaw ∧ t.MailboxLaw

/-- R42, R121, R125, R127, R129: every step keeps the law of the zone stages; a zone with an owner is READY. -/
def Obligations.EveryStepKeepsStageLaw : Prop := ∀ s t : State, s.StageLaw → step s = .next t → t.StageLaw

/-- R60: every step keeps each engine's fill plus its reserved count within 512. -/
def Obligations.EveryStepKeepsRingLaw : Prop := ∀ s t : State, s.RingLaw → step s = .next t → t.RingLaw

/-- R42, R56: every step keeps engines and announcements bound one to one, exactly for PLAYING and STOPPING. -/
def Obligations.EveryStepKeepsBindingLaw : Prop := ∀ s t : State, s.BindingLaw → step s = .next t → t.BindingLaw

/-- R32, R37: every step keeps owners, claimants and effective zones in agreement. -/
def Obligations.EveryStepKeepsZoneLaw : Prop := ∀ s t : State, s.ZoneLaw → step s = .next t → t.ZoneLaw

/-- The part right after a power-on reset meets all the laws. -/
def Obligations.ResetMeetsTheLaws : Prop :=
  State.reset.EventLaw ∧ State.reset.PoolLaw ∧ State.reset.OrderLaw ∧ State.reset.DirectoryLaw ∧ State.reset.PortLaw
    ∧ State.reset.MailboxLaw ∧ State.reset.StageLaw ∧ State.reset.RingLaw ∧ State.reset.BindingLaw
    ∧ State.reset.ZoneLaw ∧ State.reset.RangeLaw
end

