-- ==== Sys2Proof/Laws/Operands.lean ====
section
/-! SUPPORT. What the operand forms say: handles name slots and generations, codes are told apart, and the numbers of
the formats stay in their ranges. -/

namespace Sys2Proof.Machine

/-! ### Handles -/

/-- The slot of a handle is the slot it was made for (R3). -/
@[simp] theorem handleSlot_handleOf (g : BitVec 4) (i : SlotId) : handleSlot (handleOf g i) = i := by
  have hg := g.isLt
  have hi := i.isLt
  apply Fin.ext
  simp only [handleSlot, handleOf, BitVec.toNat_ofNat]
  omega

/-- The generation of a handle is the generation it was made with (R3). -/
@[simp] theorem handleGeneration_handleOf (g : BitVec 4) (i : SlotId) :
    handleGeneration (handleOf g i) = g := by
  have hg := g.isLt
  have hi := i.isLt
  apply BitVec.eq_of_toNat_eq
  simp only [handleGeneration, handleOf, BitVec.toNat_ofNat]
  omega

/-- Every handle is that of its slot and generation (R3). -/
theorem handleOf_fields (h : Handle) : handleOf (handleGeneration h) (handleSlot h) = h := by
  have hh := h.isLt
  apply BitVec.eq_of_toNat_eq
  simp only [handleGeneration, handleSlot, handleOf, BitVec.toNat_ofNat]
  omega

/-- The slot that the handle of slot i's announcement names is i. -/
@[simp] theorem handleSlot_handleAt (s : State) (i : SlotId) : handleSlot (s.handleAt i) = i := by
  simp [State.handleAt]

/-- A handle that names the announcement in slot i is that slot's handle. -/
theorem State.names_handleAt {s : State} {h : Handle} {i : SlotId} (n : s.names h i) : h = s.handleAt i := n.2

/-- A handle that names slot i's announcement passes both checks (R4). -/
theorem State.checkHandle_ok {s : State} {h : Handle} {i : SlotId} (n : s.names h i) : s.checkHandle h = .ok i := by
  obtain ⟨live, rfl⟩ := n
  simp only [Fin.getElem_fin] at live
  simp [State.checkHandle, live]

/-- A handle whose slot is FREE is refused with BAD_HANDLE (R4). -/
theorem State.checkHandle_free {s : State} {h : Handle} (free : s.slots[handleSlot h].state = .free) :
    s.checkHandle h = .error .badHandle := by
  simp only [Fin.getElem_fin] at free
  simp [State.checkHandle, free]

/-- A handle of another generation is refused with STALE_HANDLE (R4). -/
theorem State.checkHandle_stale {s : State} {h : Handle} (live : s.slots[handleSlot h].state ≠ .free)
    (other : s.slots[handleSlot h].generation ≠ handleGeneration h) : s.checkHandle h = .error .staleHandle := by
  simp only [Fin.getElem_fin] at live other
  simp [State.checkHandle, live, other]

/-! ### Numbers -/

/-- A saturating count never passes 255. -/
theorem satSucc255_le (n : Nat) : satSucc255 n ≤ 255 := by unfold satSucc255; split <;> omega

/-- A saturating count never falls below a count in its range. -/
theorem le_satSucc255 {n : Nat} (h : n ≤ 255) : n ≤ satSucc255 n := by unfold satSucc255; split <;> omega

/-- A value held to a range lies in it. -/
theorem clampInt_bounds {lo hi : Int} (h : lo ≤ hi) (x : Int) : lo ≤ clampInt lo hi x ∧ clampInt lo hi x ≤ hi := by
  unfold clampInt; split <;> (try split) <;> omega

/-- Holding a value to a range, as the larger of the low end and the smaller of the high end and the value. -/
theorem clampInt_eq_max_min {lo hi : Int} (h : lo ≤ hi) (x : Int) : clampInt lo hi x = max lo (min hi x) := by
  unfold clampInt; split <;> (try split) <;> omega

/-- A DAC code is a 12-bit number (R129). -/
theorem dacCode_le (level : Nat) (audio : Int) : dacCode level audio ≤ 4095 := by
  have := clampInt_bounds (lo := 0) (hi := 4095) (by decide) (2 * (level : Int) + audio)
  unfold dacCode; omega

/-- Three little-endian bytes. -/
theorem littleEndian_three (a b c : Byte) : littleEndian [a, b, c] = a.toNat + 256 * b.toNat + 65536 * c.toNat := by
  simp [littleEndian]; omega

/-! ### Zone sets -/

/-- The set of one zone holds that zone and no other. -/
theorem inZones_zoneBit (z w : Zone) : inZones (zoneBit z) w = decide (w = z) := by revert z w; decide

/-- A zone set without any zone is empty. -/
theorem zoneSet_eq_empty {zs : ZoneSet} (h : ∀ z : Zone, inZones zs z = false) : zs = 0#4 := by revert zs; decide

/-- Taking one zone out of a set. -/
theorem inZones_remove (zs : ZoneSet) (z w : Zone) :
    inZones (zs &&& ~~~ zoneBit z) w = (inZones zs w && decide (w ≠ z)) := by
  revert zs z w; decide

/-- Every zone stands in the list of zones. -/
theorem mem_allZones (z : Zone) : z ∈ allZones := by revert z; decide

/-- Every slot stands in the list of slots. -/
theorem mem_allSlots (i : SlotId) : i ∈ allSlots := by revert i; decide

/-- Every engine stands in the list of engines. -/
theorem mem_allEngines (e : EngineId) : e ∈ allEngines := by revert e; decide

end Sys2Proof.Machine
end

