-- ==== Sys2Proof/Laws/State.lean ====
section
/-! SUPPORT. Each named update of one record of the state, field by field, so that no proof unfolds an update; and the
reading of one slot, zone, stage or engine after its update. -/

namespace Sys2Proof.Machine

variable (s : State)

/-! ### setSlot -/

@[simp] theorem State.setSlot_pending (i : SlotId) (x : Slot) : (s.setSlot i x).pending = s.pending := rfl
@[simp] theorem State.setSlot_clock (i : SlotId) (x : Slot) : (s.setSlot i x).clock = s.clock := rfl
@[simp] theorem State.setSlot_slots (i : SlotId) (x : Slot) : (s.setSlot i x).slots = s.slots.set i x := rfl
@[simp] theorem State.setSlot_poolFree (i : SlotId) (x : Slot) : (s.setSlot i x).poolFree = s.poolFree := rfl
@[simp] theorem State.setSlot_order (i : SlotId) (x : Slot) : (s.setSlot i x).order = s.order := rfl
@[simp] theorem State.setSlot_zones (i : SlotId) (x : Slot) : (s.setSlot i x).zones = s.zones := rfl
@[simp] theorem State.setSlot_passPending (i : SlotId) (x : Slot) : (s.setSlot i x).passPending = s.passPending := rfl
@[simp] theorem State.setSlot_stages (i : SlotId) (x : Slot) : (s.setSlot i x).stages = s.stages := rfl
@[simp] theorem State.setSlot_engines (i : SlotId) (x : Slot) : (s.setSlot i x).engines = s.engines := rfl
@[simp] theorem State.setSlot_dir (i : SlotId) (x : Slot) : (s.setSlot i x).dir = s.dir := rfl
@[simp] theorem State.setSlot_port (i : SlotId) (x : Slot) : (s.setSlot i x).port = s.port := rfl
@[simp] theorem State.setSlot_events (i : SlotId) (x : Slot) : (s.setSlot i x).events = s.events := rfl
@[simp] theorem State.setSlot_mailbox (i : SlotId) (x : Slot) : (s.setSlot i x).mailbox = s.mailbox := rfl
@[simp] theorem State.setSlot_host (i : SlotId) (x : Slot) : (s.setSlot i x).host = s.host := rfl
@[simp] theorem State.setSlot_resetnLow (i : SlotId) (x : Slot) : (s.setSlot i x).resetnLow = s.resetnLow := rfl
@[simp] theorem State.setSlot_choices (i : SlotId) (x : Slot) : (s.setSlot i x).choices = s.choices := rfl

/-! ### setZone -/

@[simp] theorem State.setZone_pending (z : Zone) (x : ZoneRec) : (s.setZone z x).pending = s.pending := rfl
@[simp] theorem State.setZone_clock (z : Zone) (x : ZoneRec) : (s.setZone z x).clock = s.clock := rfl
@[simp] theorem State.setZone_slots (z : Zone) (x : ZoneRec) : (s.setZone z x).slots = s.slots := rfl
@[simp] theorem State.setZone_poolFree (z : Zone) (x : ZoneRec) : (s.setZone z x).poolFree = s.poolFree := rfl
@[simp] theorem State.setZone_order (z : Zone) (x : ZoneRec) : (s.setZone z x).order = s.order := rfl
@[simp] theorem State.setZone_zones (z : Zone) (x : ZoneRec) : (s.setZone z x).zones = s.zones.set z x := rfl
@[simp] theorem State.setZone_passPending (z : Zone) (x : ZoneRec) : (s.setZone z x).passPending = s.passPending := rfl
@[simp] theorem State.setZone_stages (z : Zone) (x : ZoneRec) : (s.setZone z x).stages = s.stages := rfl
@[simp] theorem State.setZone_engines (z : Zone) (x : ZoneRec) : (s.setZone z x).engines = s.engines := rfl
@[simp] theorem State.setZone_dir (z : Zone) (x : ZoneRec) : (s.setZone z x).dir = s.dir := rfl
@[simp] theorem State.setZone_port (z : Zone) (x : ZoneRec) : (s.setZone z x).port = s.port := rfl
@[simp] theorem State.setZone_events (z : Zone) (x : ZoneRec) : (s.setZone z x).events = s.events := rfl
@[simp] theorem State.setZone_mailbox (z : Zone) (x : ZoneRec) : (s.setZone z x).mailbox = s.mailbox := rfl
@[simp] theorem State.setZone_host (z : Zone) (x : ZoneRec) : (s.setZone z x).host = s.host := rfl
@[simp] theorem State.setZone_resetnLow (z : Zone) (x : ZoneRec) : (s.setZone z x).resetnLow = s.resetnLow := rfl
@[simp] theorem State.setZone_choices (z : Zone) (x : ZoneRec) : (s.setZone z x).choices = s.choices := rfl

/-! ### setStage -/

@[simp] theorem State.setStage_pending (z : Zone) (x : Stage) : (s.setStage z x).pending = s.pending := rfl
@[simp] theorem State.setStage_clock (z : Zone) (x : Stage) : (s.setStage z x).clock = s.clock := rfl
@[simp] theorem State.setStage_slots (z : Zone) (x : Stage) : (s.setStage z x).slots = s.slots := rfl
@[simp] theorem State.setStage_poolFree (z : Zone) (x : Stage) : (s.setStage z x).poolFree = s.poolFree := rfl
@[simp] theorem State.setStage_order (z : Zone) (x : Stage) : (s.setStage z x).order = s.order := rfl
@[simp] theorem State.setStage_zones (z : Zone) (x : Stage) : (s.setStage z x).zones = s.zones := rfl
@[simp] theorem State.setStage_passPending (z : Zone) (x : Stage) : (s.setStage z x).passPending = s.passPending := rfl
@[simp] theorem State.setStage_stages (z : Zone) (x : Stage) : (s.setStage z x).stages = s.stages.set z x := rfl
@[simp] theorem State.setStage_engines (z : Zone) (x : Stage) : (s.setStage z x).engines = s.engines := rfl
@[simp] theorem State.setStage_dir (z : Zone) (x : Stage) : (s.setStage z x).dir = s.dir := rfl
@[simp] theorem State.setStage_port (z : Zone) (x : Stage) : (s.setStage z x).port = s.port := rfl
@[simp] theorem State.setStage_events (z : Zone) (x : Stage) : (s.setStage z x).events = s.events := rfl
@[simp] theorem State.setStage_mailbox (z : Zone) (x : Stage) : (s.setStage z x).mailbox = s.mailbox := rfl
@[simp] theorem State.setStage_host (z : Zone) (x : Stage) : (s.setStage z x).host = s.host := rfl
@[simp] theorem State.setStage_resetnLow (z : Zone) (x : Stage) : (s.setStage z x).resetnLow = s.resetnLow := rfl
@[simp] theorem State.setStage_choices (z : Zone) (x : Stage) : (s.setStage z x).choices = s.choices := rfl

/-! ### setEngine -/

@[simp] theorem State.setEngine_pending (e : EngineId) (x : Engine) : (s.setEngine e x).pending = s.pending := rfl
@[simp] theorem State.setEngine_clock (e : EngineId) (x : Engine) : (s.setEngine e x).clock = s.clock := rfl
@[simp] theorem State.setEngine_slots (e : EngineId) (x : Engine) : (s.setEngine e x).slots = s.slots := rfl
@[simp] theorem State.setEngine_poolFree (e : EngineId) (x : Engine) : (s.setEngine e x).poolFree = s.poolFree := rfl
@[simp] theorem State.setEngine_order (e : EngineId) (x : Engine) : (s.setEngine e x).order = s.order := rfl
@[simp] theorem State.setEngine_zones (e : EngineId) (x : Engine) : (s.setEngine e x).zones = s.zones := rfl
@[simp] theorem State.setEngine_passPending (e : EngineId) (x : Engine) : (s.setEngine e x).passPending = s.passPending := rfl
@[simp] theorem State.setEngine_stages (e : EngineId) (x : Engine) : (s.setEngine e x).stages = s.stages := rfl
@[simp] theorem State.setEngine_engines (e : EngineId) (x : Engine) : (s.setEngine e x).engines = s.engines.set e x := rfl
@[simp] theorem State.setEngine_dir (e : EngineId) (x : Engine) : (s.setEngine e x).dir = s.dir := rfl
@[simp] theorem State.setEngine_port (e : EngineId) (x : Engine) : (s.setEngine e x).port = s.port := rfl
@[simp] theorem State.setEngine_events (e : EngineId) (x : Engine) : (s.setEngine e x).events = s.events := rfl
@[simp] theorem State.setEngine_mailbox (e : EngineId) (x : Engine) : (s.setEngine e x).mailbox = s.mailbox := rfl
@[simp] theorem State.setEngine_host (e : EngineId) (x : Engine) : (s.setEngine e x).host = s.host := rfl
@[simp] theorem State.setEngine_resetnLow (e : EngineId) (x : Engine) : (s.setEngine e x).resetnLow = s.resetnLow := rfl
@[simp] theorem State.setEngine_choices (e : EngineId) (x : Engine) : (s.setEngine e x).choices = s.choices := rfl

/-! ### setDir -/

@[simp] theorem State.setDir_pending (x : Directory) : (s.setDir x).pending = s.pending := rfl
@[simp] theorem State.setDir_clock (x : Directory) : (s.setDir x).clock = s.clock := rfl
@[simp] theorem State.setDir_slots (x : Directory) : (s.setDir x).slots = s.slots := rfl
@[simp] theorem State.setDir_poolFree (x : Directory) : (s.setDir x).poolFree = s.poolFree := rfl
@[simp] theorem State.setDir_order (x : Directory) : (s.setDir x).order = s.order := rfl
@[simp] theorem State.setDir_zones (x : Directory) : (s.setDir x).zones = s.zones := rfl
@[simp] theorem State.setDir_passPending (x : Directory) : (s.setDir x).passPending = s.passPending := rfl
@[simp] theorem State.setDir_stages (x : Directory) : (s.setDir x).stages = s.stages := rfl
@[simp] theorem State.setDir_engines (x : Directory) : (s.setDir x).engines = s.engines := rfl
@[simp] theorem State.setDir_dir (x : Directory) : (s.setDir x).dir = x := rfl
@[simp] theorem State.setDir_port (x : Directory) : (s.setDir x).port = s.port := rfl
@[simp] theorem State.setDir_events (x : Directory) : (s.setDir x).events = s.events := rfl
@[simp] theorem State.setDir_mailbox (x : Directory) : (s.setDir x).mailbox = s.mailbox := rfl
@[simp] theorem State.setDir_host (x : Directory) : (s.setDir x).host = s.host := rfl
@[simp] theorem State.setDir_resetnLow (x : Directory) : (s.setDir x).resetnLow = s.resetnLow := rfl
@[simp] theorem State.setDir_choices (x : Directory) : (s.setDir x).choices = s.choices := rfl

/-! ### setPort -/

@[simp] theorem State.setPort_pending (x : Port) : (s.setPort x).pending = s.pending := rfl
@[simp] theorem State.setPort_clock (x : Port) : (s.setPort x).clock = s.clock := rfl
@[simp] theorem State.setPort_slots (x : Port) : (s.setPort x).slots = s.slots := rfl
@[simp] theorem State.setPort_poolFree (x : Port) : (s.setPort x).poolFree = s.poolFree := rfl
@[simp] theorem State.setPort_order (x : Port) : (s.setPort x).order = s.order := rfl
@[simp] theorem State.setPort_zones (x : Port) : (s.setPort x).zones = s.zones := rfl
@[simp] theorem State.setPort_passPending (x : Port) : (s.setPort x).passPending = s.passPending := rfl
@[simp] theorem State.setPort_stages (x : Port) : (s.setPort x).stages = s.stages := rfl
@[simp] theorem State.setPort_engines (x : Port) : (s.setPort x).engines = s.engines := rfl
@[simp] theorem State.setPort_dir (x : Port) : (s.setPort x).dir = s.dir := rfl
@[simp] theorem State.setPort_port (x : Port) : (s.setPort x).port = x := rfl
@[simp] theorem State.setPort_events (x : Port) : (s.setPort x).events = s.events := rfl
@[simp] theorem State.setPort_mailbox (x : Port) : (s.setPort x).mailbox = s.mailbox := rfl
@[simp] theorem State.setPort_host (x : Port) : (s.setPort x).host = s.host := rfl
@[simp] theorem State.setPort_resetnLow (x : Port) : (s.setPort x).resetnLow = s.resetnLow := rfl
@[simp] theorem State.setPort_choices (x : Port) : (s.setPort x).choices = s.choices := rfl

/-! ### setEvents -/

@[simp] theorem State.setEvents_pending (x : EventQueue) : (s.setEvents x).pending = s.pending := rfl
@[simp] theorem State.setEvents_clock (x : EventQueue) : (s.setEvents x).clock = s.clock := rfl
@[simp] theorem State.setEvents_slots (x : EventQueue) : (s.setEvents x).slots = s.slots := rfl
@[simp] theorem State.setEvents_poolFree (x : EventQueue) : (s.setEvents x).poolFree = s.poolFree := rfl
@[simp] theorem State.setEvents_order (x : EventQueue) : (s.setEvents x).order = s.order := rfl
@[simp] theorem State.setEvents_zones (x : EventQueue) : (s.setEvents x).zones = s.zones := rfl
@[simp] theorem State.setEvents_passPending (x : EventQueue) : (s.setEvents x).passPending = s.passPending := rfl
@[simp] theorem State.setEvents_stages (x : EventQueue) : (s.setEvents x).stages = s.stages := rfl
@[simp] theorem State.setEvents_engines (x : EventQueue) : (s.setEvents x).engines = s.engines := rfl
@[simp] theorem State.setEvents_dir (x : EventQueue) : (s.setEvents x).dir = s.dir := rfl
@[simp] theorem State.setEvents_port (x : EventQueue) : (s.setEvents x).port = s.port := rfl
@[simp] theorem State.setEvents_events (x : EventQueue) : (s.setEvents x).events = x := rfl
@[simp] theorem State.setEvents_mailbox (x : EventQueue) : (s.setEvents x).mailbox = s.mailbox := rfl
@[simp] theorem State.setEvents_host (x : EventQueue) : (s.setEvents x).host = s.host := rfl
@[simp] theorem State.setEvents_resetnLow (x : EventQueue) : (s.setEvents x).resetnLow = s.resetnLow := rfl
@[simp] theorem State.setEvents_choices (x : EventQueue) : (s.setEvents x).choices = s.choices := rfl

/-! ### setMailbox -/

@[simp] theorem State.setMailbox_pending (x : Mailbox) : (s.setMailbox x).pending = s.pending := rfl
@[simp] theorem State.setMailbox_clock (x : Mailbox) : (s.setMailbox x).clock = s.clock := rfl
@[simp] theorem State.setMailbox_slots (x : Mailbox) : (s.setMailbox x).slots = s.slots := rfl
@[simp] theorem State.setMailbox_poolFree (x : Mailbox) : (s.setMailbox x).poolFree = s.poolFree := rfl
@[simp] theorem State.setMailbox_order (x : Mailbox) : (s.setMailbox x).order = s.order := rfl
@[simp] theorem State.setMailbox_zones (x : Mailbox) : (s.setMailbox x).zones = s.zones := rfl
@[simp] theorem State.setMailbox_passPending (x : Mailbox) : (s.setMailbox x).passPending = s.passPending := rfl
@[simp] theorem State.setMailbox_stages (x : Mailbox) : (s.setMailbox x).stages = s.stages := rfl
@[simp] theorem State.setMailbox_engines (x : Mailbox) : (s.setMailbox x).engines = s.engines := rfl
@[simp] theorem State.setMailbox_dir (x : Mailbox) : (s.setMailbox x).dir = s.dir := rfl
@[simp] theorem State.setMailbox_port (x : Mailbox) : (s.setMailbox x).port = s.port := rfl
@[simp] theorem State.setMailbox_events (x : Mailbox) : (s.setMailbox x).events = s.events := rfl
@[simp] theorem State.setMailbox_mailbox (x : Mailbox) : (s.setMailbox x).mailbox = x := rfl
@[simp] theorem State.setMailbox_host (x : Mailbox) : (s.setMailbox x).host = s.host := rfl
@[simp] theorem State.setMailbox_resetnLow (x : Mailbox) : (s.setMailbox x).resetnLow = s.resetnLow := rfl
@[simp] theorem State.setMailbox_choices (x : Mailbox) : (s.setMailbox x).choices = s.choices := rfl

/-! ### setHost -/

@[simp] theorem State.setHost_pending (x : HostPort) : (s.setHost x).pending = s.pending := rfl
@[simp] theorem State.setHost_clock (x : HostPort) : (s.setHost x).clock = s.clock := rfl
@[simp] theorem State.setHost_slots (x : HostPort) : (s.setHost x).slots = s.slots := rfl
@[simp] theorem State.setHost_poolFree (x : HostPort) : (s.setHost x).poolFree = s.poolFree := rfl
@[simp] theorem State.setHost_order (x : HostPort) : (s.setHost x).order = s.order := rfl
@[simp] theorem State.setHost_zones (x : HostPort) : (s.setHost x).zones = s.zones := rfl
@[simp] theorem State.setHost_passPending (x : HostPort) : (s.setHost x).passPending = s.passPending := rfl
@[simp] theorem State.setHost_stages (x : HostPort) : (s.setHost x).stages = s.stages := rfl
@[simp] theorem State.setHost_engines (x : HostPort) : (s.setHost x).engines = s.engines := rfl
@[simp] theorem State.setHost_dir (x : HostPort) : (s.setHost x).dir = s.dir := rfl
@[simp] theorem State.setHost_port (x : HostPort) : (s.setHost x).port = s.port := rfl
@[simp] theorem State.setHost_events (x : HostPort) : (s.setHost x).events = s.events := rfl
@[simp] theorem State.setHost_mailbox (x : HostPort) : (s.setHost x).mailbox = s.mailbox := rfl
@[simp] theorem State.setHost_host (x : HostPort) : (s.setHost x).host = x := rfl
@[simp] theorem State.setHost_resetnLow (x : HostPort) : (s.setHost x).resetnLow = s.resetnLow := rfl
@[simp] theorem State.setHost_choices (x : HostPort) : (s.setHost x).choices = s.choices := rfl

/-! ### setClock -/

@[simp] theorem State.setClock_pending (x : FrameClock) : (s.setClock x).pending = s.pending := rfl
@[simp] theorem State.setClock_clock (x : FrameClock) : (s.setClock x).clock = x := rfl
@[simp] theorem State.setClock_slots (x : FrameClock) : (s.setClock x).slots = s.slots := rfl
@[simp] theorem State.setClock_poolFree (x : FrameClock) : (s.setClock x).poolFree = s.poolFree := rfl
@[simp] theorem State.setClock_order (x : FrameClock) : (s.setClock x).order = s.order := rfl
@[simp] theorem State.setClock_zones (x : FrameClock) : (s.setClock x).zones = s.zones := rfl
@[simp] theorem State.setClock_passPending (x : FrameClock) : (s.setClock x).passPending = s.passPending := rfl
@[simp] theorem State.setClock_stages (x : FrameClock) : (s.setClock x).stages = s.stages := rfl
@[simp] theorem State.setClock_engines (x : FrameClock) : (s.setClock x).engines = s.engines := rfl
@[simp] theorem State.setClock_dir (x : FrameClock) : (s.setClock x).dir = s.dir := rfl
@[simp] theorem State.setClock_port (x : FrameClock) : (s.setClock x).port = s.port := rfl
@[simp] theorem State.setClock_events (x : FrameClock) : (s.setClock x).events = s.events := rfl
@[simp] theorem State.setClock_mailbox (x : FrameClock) : (s.setClock x).mailbox = s.mailbox := rfl
@[simp] theorem State.setClock_host (x : FrameClock) : (s.setClock x).host = s.host := rfl
@[simp] theorem State.setClock_resetnLow (x : FrameClock) : (s.setClock x).resetnLow = s.resetnLow := rfl
@[simp] theorem State.setClock_choices (x : FrameClock) : (s.setClock x).choices = s.choices := rfl

/-! ### requestPass -/

@[simp] theorem State.requestPass_pending : s.requestPass.pending = s.pending := rfl
@[simp] theorem State.requestPass_clock : s.requestPass.clock = s.clock := rfl
@[simp] theorem State.requestPass_slots : s.requestPass.slots = s.slots := rfl
@[simp] theorem State.requestPass_poolFree : s.requestPass.poolFree = s.poolFree := rfl
@[simp] theorem State.requestPass_order : s.requestPass.order = s.order := rfl
@[simp] theorem State.requestPass_zones : s.requestPass.zones = s.zones := rfl
@[simp] theorem State.requestPass_passPending : s.requestPass.passPending = true := rfl
@[simp] theorem State.requestPass_stages : s.requestPass.stages = s.stages := rfl
@[simp] theorem State.requestPass_engines : s.requestPass.engines = s.engines := rfl
@[simp] theorem State.requestPass_dir : s.requestPass.dir = s.dir := rfl
@[simp] theorem State.requestPass_port : s.requestPass.port = s.port := rfl
@[simp] theorem State.requestPass_events : s.requestPass.events = s.events := rfl
@[simp] theorem State.requestPass_mailbox : s.requestPass.mailbox = s.mailbox := rfl
@[simp] theorem State.requestPass_host : s.requestPass.host = s.host := rfl
@[simp] theorem State.requestPass_resetnLow : s.requestPass.resetnLow = s.resetnLow := rfl
@[simp] theorem State.requestPass_choices : s.requestPass.choices = s.choices := rfl

/-! ### withPending -/

@[simp] theorem State.withPending_pending (q : List Instr) : (s.withPending q).pending = q := rfl
@[simp] theorem State.withPending_clock (q : List Instr) : (s.withPending q).clock = s.clock := rfl
@[simp] theorem State.withPending_slots (q : List Instr) : (s.withPending q).slots = s.slots := rfl
@[simp] theorem State.withPending_poolFree (q : List Instr) : (s.withPending q).poolFree = s.poolFree := rfl
@[simp] theorem State.withPending_order (q : List Instr) : (s.withPending q).order = s.order := rfl
@[simp] theorem State.withPending_zones (q : List Instr) : (s.withPending q).zones = s.zones := rfl
@[simp] theorem State.withPending_passPending (q : List Instr) : (s.withPending q).passPending = s.passPending := rfl
@[simp] theorem State.withPending_stages (q : List Instr) : (s.withPending q).stages = s.stages := rfl
@[simp] theorem State.withPending_engines (q : List Instr) : (s.withPending q).engines = s.engines := rfl
@[simp] theorem State.withPending_dir (q : List Instr) : (s.withPending q).dir = s.dir := rfl
@[simp] theorem State.withPending_port (q : List Instr) : (s.withPending q).port = s.port := rfl
@[simp] theorem State.withPending_events (q : List Instr) : (s.withPending q).events = s.events := rfl
@[simp] theorem State.withPending_mailbox (q : List Instr) : (s.withPending q).mailbox = s.mailbox := rfl
@[simp] theorem State.withPending_host (q : List Instr) : (s.withPending q).host = s.host := rfl
@[simp] theorem State.withPending_resetnLow (q : List Instr) : (s.withPending q).resetnLow = s.resetnLow := rfl
@[simp] theorem State.withPending_choices (q : List Instr) : (s.withPending q).choices = s.choices := rfl

/-! ### One record after its update -/

/-- The slot that was set. -/
theorem State.setSlot_get_self (i : SlotId) (x : Slot) : (s.setSlot i x).slots[i] = x := by simp

/-- Any other slot is as it was. -/
theorem State.setSlot_get_other (i j : SlotId) (x : Slot) (h : j ≠ i) : (s.setSlot i x).slots[j] = s.slots[j] := by
  have : ¬ (i : Nat) = j := fun e => h (Fin.ext e.symm)
  simp [this]

/-- The zone that was set. -/
theorem State.setZone_get_self (i : Zone) (x : ZoneRec) : (s.setZone i x).zones[i] = x := by simp

/-- Any other zone is as it was. -/
theorem State.setZone_get_other (i j : Zone) (x : ZoneRec) (h : j ≠ i) : (s.setZone i x).zones[j] = s.zones[j] := by
  have : ¬ (i : Nat) = j := fun e => h (Fin.ext e.symm)
  simp [this]

/-- The stage that was set. -/
theorem State.setStage_get_self (i : Zone) (x : Stage) : (s.setStage i x).stages[i] = x := by simp

/-- Any other stage is as it was. -/
theorem State.setStage_get_other (i j : Zone) (x : Stage) (h : j ≠ i) : (s.setStage i x).stages[j] = s.stages[j] := by
  have : ¬ (i : Nat) = j := fun e => h (Fin.ext e.symm)
  simp [this]

/-- The engine that was set. -/
theorem State.setEngine_get_self (i : EngineId) (x : Engine) : (s.setEngine i x).engines[i] = x := by simp

/-- Any other engine is as it was. -/
theorem State.setEngine_get_other (i j : EngineId) (x : Engine) (h : j ≠ i) : (s.setEngine i x).engines[j] = s.engines[j] := by
  have : ¬ (i : Nat) = j := fun e => h (Fin.ext e.symm)
  simp [this]

end Sys2Proof.Machine
end

