-- ==== Sys2Proof/Laws/Queue.lean ====
section
/-! SUPPORT. What offering an event to the queue can do (R161 to R163), said once; and that offering, by one block or by
several, touches nothing but the queue and the count of choices. -/

namespace Sys2Proof.Machine

/-! ### One offer -/

/-- A masked event leaves the queue as it is (R161). -/
theorem EventQueue.offer_masked {q : EventQueue} {r : EventRecord} (h : q.enabled r.kind = false) : q.offer r = q := by
  simp [EventQueue.offer, h]

/-- With an OVERFLOW record in the queue the event is dropped and counted (R162, R163). -/
theorem EventQueue.offer_overflowing {q : EventQueue} {r : EventRecord} (h : q.enabled r.kind = true)
    (o : q.overflowing = true) : q.offer r = { q with records := q.records.map EventRecord.countDrop } := by
  simp [EventQueue.offer, h, o]

/-- With 31 records and no OVERFLOW, an OVERFLOW record is queued in the event's place (R162). -/
theorem EventQueue.offer_full {q : EventQueue} {r : EventRecord} (h : q.enabled r.kind = true)
    (o : q.overflowing = false) (full : 31 ≤ q.records.length) :
    q.offer r = { q with records := q.records ++ [EventRecord.overflow] } := by
  simp [EventQueue.offer, h, o, full]

/-- With room, the event is queued (R162). -/
theorem EventQueue.offer_queued {q : EventQueue} {r : EventRecord} (h : q.enabled r.kind = true)
    (o : q.overflowing = false) (room : q.records.length < 31) :
    q.offer r = { q with records := q.records ++ [r] } := by
  have : ¬ 31 ≤ q.records.length := by omega
  simp [EventQueue.offer, h, o, this]

/-- Everything an offer can do. -/
theorem EventQueue.offer_cases (q : EventQueue) (r : EventRecord) :
    q.offer r = q
      ∨ (q.overflowing = true ∧ q.offer r = { q with records := q.records.map EventRecord.countDrop })
      ∨ (q.overflowing = false ∧ 31 ≤ q.records.length
          ∧ q.offer r = { q with records := q.records ++ [EventRecord.overflow] })
      ∨ (q.overflowing = false ∧ q.records.length < 31 ∧ q.offer r = { q with records := q.records ++ [r] }) := by
  cases h : q.enabled r.kind with
  | false => exact .inl (offer_masked h)
  | true =>
    cases o : q.overflowing with
    | true => exact .inr (.inl ⟨rfl, offer_overflowing h o⟩)
    | false =>
      by_cases full : 31 ≤ q.records.length
      · exact .inr (.inr (.inl ⟨rfl, full, offer_full h o full⟩))
      · exact .inr (.inr (.inr ⟨rfl, by omega, offer_queued h o (by omega)⟩))

/-- An offer changes the records alone. -/
theorem EventQueue.offer_frame (q : EventQueue) (r : EventRecord) :
    (q.offer r).mask0 = q.mask0 ∧ (q.offer r).mask1 = q.mask1 ∧ (q.offer r).irqEnable = q.irqEnable := by
  rcases q.offer_cases r with h | ⟨-, h⟩ | ⟨-, -, h⟩ | ⟨-, -, h⟩ <;> simp [h]

/-- Counting a drop keeps every record's kind. -/
@[simp] theorem EventRecord.countDrop_kind (r : EventRecord) : r.countDrop.kind = r.kind := by
  unfold EventRecord.countDrop; split <;> rfl

/-! ### Offers of one block and of several -/

/-- An offer touches the event queue alone. -/
theorem State.offer_eq (s : State) (r : EventRecord) : s.offer r = { s with events := s.events.offer r } := rfl

@[simp] theorem State.offer_events (s : State) (r : EventRecord) : (s.offer r).events = s.events.offer r := rfl
@[simp] theorem State.offer_slots (s : State) (r : EventRecord) : (s.offer r).slots = s.slots := rfl
@[simp] theorem State.offer_zones (s : State) (r : EventRecord) : (s.offer r).zones = s.zones := rfl
@[simp] theorem State.offer_stages (s : State) (r : EventRecord) : (s.offer r).stages = s.stages := rfl
@[simp] theorem State.offer_engines (s : State) (r : EventRecord) : (s.offer r).engines = s.engines := rfl
@[simp] theorem State.offer_order (s : State) (r : EventRecord) : (s.offer r).order = s.order := rfl
@[simp] theorem State.offer_poolFree (s : State) (r : EventRecord) : (s.offer r).poolFree = s.poolFree := rfl
@[simp] theorem State.offer_passPending (s : State) (r : EventRecord) : (s.offer r).passPending = s.passPending := rfl
@[simp] theorem State.offer_dir (s : State) (r : EventRecord) : (s.offer r).dir = s.dir := rfl
@[simp] theorem State.offer_port (s : State) (r : EventRecord) : (s.offer r).port = s.port := rfl
@[simp] theorem State.offer_mailbox (s : State) (r : EventRecord) : (s.offer r).mailbox = s.mailbox := rfl
@[simp] theorem State.offer_host (s : State) (r : EventRecord) : (s.offer r).host = s.host := rfl
@[simp] theorem State.offer_pending (s : State) (r : EventRecord) : (s.offer r).pending = s.pending := rfl

/-- The offers of several blocks touch the event queue and the count of choices alone (R164). -/
theorem State.offerFrom_eq (s : State) (sources : List (List EventRecord)) :
    s.offerFrom sources
      = { s with events := (s.offerFrom sources).events, choices := (s.offerFrom sources).choices } := rfl

/-- A property of the queue that every offer keeps is kept by the offers of several blocks, in whatever order. -/
theorem mergeOffers_induction {P : EventQueue → Prop} (keep : ∀ q r, P q → P (q.offer r)) :
    ∀ (n : Nat) (sources : List (List EventRecord)) (q : EventQueue) (c : Nat), P q → P (mergeOffers n sources q c).1
  | 0, _, _, _, h => h
  | n + 1, sources, q, c, h => by
    unfold mergeOffers
    split
    · exact h
    · next one _ =>
      have fold : ∀ (l : List EventRecord) (p : EventQueue), P p → P (l.foldl EventQueue.offer p) := by
        intro l
        induction l with
        | nil => exact fun _ hp => hp
        | cons r rest ih => exact fun p hp => ih _ (keep p r hp)
      exact fold one q h
    · simp only
      split
      · exact h
      · exact mergeOffers_induction keep n _ _ _ (keep _ _ h)

/-- With nothing to offer the queue stays. -/
theorem mergeOffers_nothing (n : Nat) (sources : List (List EventRecord)) (q : EventQueue) (c : Nat)
    (h : ∀ l ∈ sources, l = []) : mergeOffers n sources q c = (q, c) := by
  have : sources.filter (fun l => !l.isEmpty) = [] := by
    simp only [List.filter_eq_nil_iff]
    intro l hl
    simp [h l hl]
  cases n <;> simp [mergeOffers, this]

end Sys2Proof.Machine
end

