-- ==== Sys2Proof/Laws/Ops.lean ====
section
/-! SUPPORT. What each operation shared by the announcements, the scheduler and the zone stages can do, said once:
claims, owners, the start check, unbinding, freeing, requeueing and the end of a fade. -/

namespace Sys2Proof.Machine

/-! ### The idle hold and claimants -/

/-- Settling a zone changes at most its stage, and that only where the zone is idle (R125). -/
theorem State.settleIdle_eq (s : State) (z : Zone) :
    s.settleIdle z = s.setStage z (if s.zoneIdle z then s.stages[z].startIdle else s.stages[z]) := by
  unfold State.settleIdle
  split
  · rfl
  · simp [State.setStage]

/-- A claimant that leaves: its zone has none, and an idle zone's hold begins (R124, R125). -/
theorem State.dropClaimant_eq (s : State) (z : Zone) :
    s.dropClaimant z
      = { s with
          zones := s.zones.set z { owner := s.zones[z].owner, claimant := none }
          stages := s.stages.set z
            (if s.stages[z].bias = .ready ∧ s.zones[z].owner = none ∧ s.stages[z].fade = none
              then s.stages[z].startIdle else s.stages[z]) } := by
  simp only [State.dropClaimant, State.settleIdle_eq, State.setStage, State.setZone, State.zoneIdle]
  congr 1
  congr 1
  simp [and_assoc]

/-- Removing an announcement's claims on the zones of a list without repeats: pointwise (R24, R39, R44). -/
theorem State.withdrawClaims_list (h : Handle) :
    ∀ (l : List Zone) (s : State), l.Nodup →
      ∃ (zones : Vector ZoneRec 4) (stages : Vector Stage 4),
        l.foldl (fun t z => if t.zones[z].claimant = some h then t.dropClaimant z else t) s
            = { s with zones := zones, stages := stages }
          ∧ ∀ z : Zone,
              zones[z] = (if z ∈ l ∧ s.zones[z].claimant = some h
                then { owner := s.zones[z].owner, claimant := none } else s.zones[z])
              ∧ stages[z] = (if z ∈ l ∧ s.zones[z].claimant = some h ∧ s.zones[z].owner = none
                  ∧ s.stages[z].bias = .ready ∧ s.stages[z].fade = none
                then s.stages[z].startIdle else s.stages[z])
  | [], s, _ => ⟨s.zones, s.stages, rfl, by simp⟩
  | y :: rest, s, nodup => by
    obtain ⟨fresh, nodup⟩ := List.nodup_cons.mp nodup
    simp only [List.foldl_cons]
    by_cases claims : s.zones[y].claimant = some h
    · rw [if_pos claims, State.dropClaimant_eq]
      obtain ⟨zones, stages, eq, at_⟩ := withdrawClaims_list h rest _ nodup
      refine ⟨zones, stages, eq, fun z => ?_⟩
      obtain ⟨hz, hg⟩ := at_ z
      rw [hz, hg]
      by_cases e : z = y
      · subst e
        simp only [Fin.getElem_fin] at claims
        simp [fresh, claims, and_comm, and_assoc]
      · have ne : ¬ (y : Nat) = z := fun q => e (Fin.ext q.symm)
        simp [e, ne]
    · rw [if_neg claims]
      obtain ⟨zones, stages, eq, at_⟩ := withdrawClaims_list h rest s nodup
      refine ⟨zones, stages, eq, fun z => ?_⟩
      obtain ⟨hz, hg⟩ := at_ z
      rw [hz, hg]
      by_cases e : z = y
      · subst e
        simp only [Fin.getElem_fin] at claims
        simp [fresh, claims]
      · simp [e]

/-- Everything the withdrawal of an announcement's claims does (R24, R39, R44). -/
theorem State.withdrawClaims_eq (s : State) (h : Handle) :
    ∃ (zones : Vector ZoneRec 4) (stages : Vector Stage 4),
      s.withdrawClaims h = { s with zones := zones, stages := stages }
        ∧ ∀ z : Zone,
            zones[z] = (if s.zones[z].claimant = some h
              then { owner := s.zones[z].owner, claimant := none } else s.zones[z])
            ∧ stages[z] = (if s.zones[z].claimant = some h ∧ s.zones[z].owner = none
                ∧ s.stages[z].bias = .ready ∧ s.stages[z].fade = none
              then s.stages[z].startIdle else s.stages[z]) := by
  obtain ⟨zones, stages, eq, at_⟩ := State.withdrawClaims_list h allZones s (by decide)
  refine ⟨zones, stages, eq, fun z => ?_⟩
  simpa [mem_allZones] using at_ z

/-! ### The start check and owners -/

/-- A start check changes at most one announcement's mark that its start is due (R41). -/
theorem State.startCheck_eq (s : State) (i : SlotId) :
    s.startCheck i = s.setSlot i { s.slots[i] with startDue := s.slots[i].startDue || s.readyToStart i } := by
  unfold State.startCheck
  split
  · next h => simp [h]
  · next h =>
    have keep : ({ s.slots[i] with startDue := s.slots[i].startDue || s.readyToStart i } : Slot) = s.slots[i] := by
      simp [h]
    rw [keep]
    simp [State.setSlot]

/-- The start check of a zone changes at most its claimant's mark that its start is due. -/
theorem State.startCheckZone_frame (s : State) (z : Zone) :
    ∃ slots : Vector Slot 16, s.startCheckZone z = { s with slots := slots }
      ∧ ∀ j : SlotId, ∃ due : Bool, slots[j] = { s.slots[j] with startDue := due } := by
  unfold State.startCheckZone
  split
  · next h _ =>
    rw [State.startCheck_eq]
    refine ⟨_, rfl, fun j => ?_⟩
    by_cases e : j = handleSlot h
    · subst e; exact ⟨s.slots[handleSlot h].startDue || s.readyToStart (handleSlot h), by simp⟩
    · have ne : ¬ (handleSlot h : Nat) = j := fun q => e (Fin.ext q.symm)
      exact ⟨s.slots[j].startDue, by simp [ne]⟩
  · exact ⟨s.slots, rfl, fun j => ⟨s.slots[j].startDue, rfl⟩⟩

/-- Everything the loss of one owner does (R41, R125): its zone has none, an idle zone's hold begins, and its claimant's
start is checked. -/
theorem State.dropOwner_frame (s : State) (z : Zone) :
    ∃ slots : Vector Slot 16,
      s.dropOwner z
        = { s with
            zones := s.zones.set z { owner := none, claimant := s.zones[z].claimant }
            stages := s.stages.set z
              (if s.stages[z].bias = .ready ∧ s.zones[z].claimant = none ∧ s.stages[z].fade = none
                then s.stages[z].startIdle else s.stages[z])
            slots := slots }
        ∧ ∀ j : SlotId, ∃ due : Bool, slots[j] = { s.slots[j] with startDue := due } := by
  obtain ⟨slots, eq, at_⟩ :=
    State.startCheckZone_frame ((s.setZone z { s.zones[z] with owner := none }).settleIdle z) z
  refine ⟨slots, ?_, ?_⟩
  · rw [State.dropOwner, eq]
    simp only [State.settleIdle_eq, State.setStage, State.setZone, State.zoneIdle]
    congr 1
    congr 1
    simp [and_assoc]
  · simpa [State.settleIdle_eq] using at_

/-- Removing an announcement as owner of the zones of a list without repeats: pointwise (R47, R50). -/
theorem State.releaseZones_list (h : Handle) :
    ∀ (l : List Zone) (s : State), l.Nodup →
      ∃ (zones : Vector ZoneRec 4) (stages : Vector Stage 4) (slots : Vector Slot 16),
        l.foldl (fun t z => if t.zones[z].owner = some h then t.dropOwner z else t) s
            = { s with zones := zones, stages := stages, slots := slots }
          ∧ (∀ j : SlotId, ∃ due : Bool, slots[j] = { s.slots[j] with startDue := due })
          ∧ ∀ z : Zone,
              zones[z] = (if z ∈ l ∧ s.zones[z].owner = some h
                then { owner := none, claimant := s.zones[z].claimant } else s.zones[z])
              ∧ stages[z] = (if z ∈ l ∧ s.zones[z].owner = some h ∧ s.zones[z].claimant = none
                  ∧ s.stages[z].bias = .ready ∧ s.stages[z].fade = none
                then s.stages[z].startIdle else s.stages[z])
  | [], s, _ => ⟨s.zones, s.stages, s.slots, rfl, fun j => ⟨s.slots[j].startDue, rfl⟩, by simp⟩
  | y :: rest, s, nodup => by
    obtain ⟨fresh, nodup⟩ := List.nodup_cons.mp nodup
    simp only [List.foldl_cons]
    by_cases owns : s.zones[y].owner = some h
    · rw [if_pos owns]
      obtain ⟨slots1, eq1, due1⟩ := State.dropOwner_frame s y
      rw [eq1]
      obtain ⟨zones, stages, slots, eq, due, at_⟩ := releaseZones_list h rest _ nodup
      refine ⟨zones, stages, slots, eq, fun j => ?_, fun z => ?_⟩
      · obtain ⟨d1, e1⟩ := due1 j
        obtain ⟨d, e⟩ := due j
        exact ⟨d, by rw [e]; simp only [e1]⟩
      · obtain ⟨hz, hg⟩ := at_ z
        rw [hz, hg]
        by_cases e : z = y
        · subst e
          simp only [Fin.getElem_fin] at owns
          simp [fresh, owns, and_comm, and_assoc]
        · have ne : ¬ (y : Nat) = z := fun q => e (Fin.ext q.symm)
          simp [e, ne]
    · rw [if_neg owns]
      obtain ⟨zones, stages, slots, eq, due, at_⟩ := releaseZones_list h rest s nodup
      refine ⟨zones, stages, slots, eq, due, fun z => ?_⟩
      obtain ⟨hz, hg⟩ := at_ z
      rw [hz, hg]
      by_cases e : z = y
      · subst e
        simp only [Fin.getElem_fin] at owns
        simp [fresh, owns]
      · simp [e]

/-- Everything the release of an announcement's zones does (R47, R50). -/
theorem State.releaseZones_eq (s : State) (h : Handle) :
    ∃ (zones : Vector ZoneRec 4) (stages : Vector Stage 4) (slots : Vector Slot 16),
      s.releaseZones h = { s with zones := zones, stages := stages, slots := slots }
        ∧ (∀ j : SlotId, ∃ due : Bool, slots[j] = { s.slots[j] with startDue := due })
        ∧ ∀ z : Zone,
            zones[z] = (if s.zones[z].owner = some h
              then { owner := none, claimant := s.zones[z].claimant } else s.zones[z])
            ∧ stages[z] = (if s.zones[z].owner = some h ∧ s.zones[z].claimant = none
                ∧ s.stages[z].bias = .ready ∧ s.stages[z].fade = none
              then s.stages[z].startIdle else s.stages[z]) := by
  obtain ⟨zones, stages, slots, eq, due, at_⟩ := State.releaseZones_list h allZones s (by decide)
  refine ⟨zones, stages, slots, eq, due, fun z => ?_⟩
  simpa [mem_allZones] using at_ z

/-! ### Engines, freeing and requeueing -/

/-- Unbinding sets one engine, that of the slot (R58). -/
theorem State.unbindOf_some {s : State} {i : SlotId} {e : EngineId} (b : s.slots[i].engine = some e) :
    s.unbindOf i = { s with engines := s.engines.set e (Engine.idle (s.engines[e].epoch + 1#8)) } := by
  simp only [Fin.getElem_fin] at b
  simp [State.unbindOf, b, State.setEngine, Engine.unbind]

/-- A slot without an engine has none to unbind. -/
theorem State.unbindOf_none {s : State} {i : SlotId} (b : s.slots[i].engine = none) : s.unbindOf i = s := by
  simp only [Fin.getElem_fin] at b
  simp [State.unbindOf, b]

/-- Everything that giving up its zones and its engine does to a bound announcement and around it (R47, R50, R58). -/
theorem State.giveUp_some {s : State} {i : SlotId} {e : EngineId} (b : s.slots[i].engine = some e) :
    ∃ (zones : Vector ZoneRec 4) (stages : Vector Stage 4) (slots : Vector Slot 16),
      s.giveUp i = { s with zones := zones, stages := stages, slots := slots
                            engines := s.engines.set e (Engine.idle (s.engines[e].epoch + 1#8)) }
        ∧ (∃ due : Bool, slots[i] = { s.slots[i] with effZones := 0#4, engine := none, startDue := due })
        ∧ (∀ j : SlotId, j ≠ i → ∃ due : Bool, slots[j] = { s.slots[j] with startDue := due })
        ∧ ∀ z : Zone,
            zones[z] = (if s.zones[z].owner = some (s.handleAt i)
              then { owner := none, claimant := s.zones[z].claimant } else s.zones[z])
            ∧ stages[z] = (if s.zones[z].owner = some (s.handleAt i) ∧ s.zones[z].claimant = none
                ∧ s.stages[z].bias = .ready ∧ s.stages[z].fade = none
              then s.stages[z].startIdle else s.stages[z]) := by
  obtain ⟨zones, stages, slots, eq, due, at_⟩ := State.releaseZones_eq s (s.handleAt i)
  obtain ⟨d, hd⟩ := due i
  have b' : slots[i].engine = some e := by rw [hd]; exact b
  have cleared : ∀ t : State, t = (s.releaseZones (s.handleAt i)).unbindOf i →
      s.giveUp i = t.setSlot i { t.slots[i] with effZones := 0#4, engine := none } := by
    rintro t rfl; rfl
  have t_eq : (s.releaseZones (s.handleAt i)).unbindOf i
      = { s with zones := zones, stages := stages, slots := slots
                 engines := s.engines.set e (Engine.idle (s.engines[e].epoch + 1#8)) } := by
    rw [eq]; exact State.unbindOf_some (s := { s with zones := zones, stages := stages, slots := slots }) b'
  refine ⟨zones, stages, slots.set i { slots[i] with effZones := 0#4, engine := none }, cleared _ t_eq.symm, ?_, ?_, at_⟩
  · exact ⟨d, by simp only [Fin.getElem_fin] at hd ⊢; simp [hd]⟩
  · intro j hj
    obtain ⟨dj, hdj⟩ := due j
    have ne : ¬ (i : Nat) = j := fun q => hj (Fin.ext q.symm)
    exact ⟨dj, by simpa [ne] using hdj⟩

/-- A PLAYING announcement becomes STOPPING: its record's state and stopping fields, and its engine's fade
(R6, R79). -/
theorem State.enterStopping_some {s : State} {i : SlotId} {e : EngineId} (b : s.slots[i].engine = some e)
    (why : Stopping) :
    s.enterStopping i why
      = { s with
          engines := s.engines.set e s.engines[e].enterFading
          slots := s.slots.set i { s.slots[i] with state := .stopping, stop := some why } } := by
  simp only [Fin.getElem_fin] at b
  simp [State.enterStopping, b, State.setEngine, State.setSlot]

/-- Everything the freeing of a slot does (R28, R29): the event, the records, the list, the slot, and a pass where the
slot was in the list. -/
theorem State.freeSlot_eq (s : State) (i : SlotId) (o : AnnOutcome) :
    s.freeSlot i o
      = { s with
          events := s.events.offer
            (EventRecord.finished (s.handleAt i) s.slots[i].tag o s.slots[i].underruns s.slots[i].faultCount)
          poolFree := s.poolFree + s.slots[i].segments.length
          order := s.order.filter fun j => j != i
          passPending := s.passPending || s.order.contains i
          slots := s.slots.set i (Slot.free (s.slots[i].generation + 1#4)) } := rfl

/-- Everything the requeue to the start of an announcement does (R7, R49). -/
theorem State.requeue_restart (s : State) (i : SlotId) (by_ : Byte) :
    s.requeue i .restart by_
      = { s with
          slots := s.slots.set i
            { s.slots[i] with
              state := .queued, playPos := ⟨0, 1⟩, resume := none, effZones := 0#4, stop := none, engine := none
              startDue := false }
          events := s.events.offer (EventRecord.preempted (s.handleAt i) s.slots[i].tag .restart by_ 0) } := rfl

/-- Everything the requeue to the play position of an announcement does (R7, R49). -/
theorem State.requeue_resume (s : State) (i : SlotId) (by_ : Byte) :
    s.requeue i .resume by_
      = { s with
          slots := s.slots.set i
            { s.slots[i] with
              state := .queued, resume := some s.slots[i].playPos, effZones := 0#4, stop := none, engine := none
              startDue := false }
          events := s.events.offer
            (EventRecord.preempted (s.handleAt i) s.slots[i].tag .resume by_ s.slots[i].playPos.seg) } := rfl

/-- The disposal of a STOPPING announcement is a freeing or a requeue (R48). -/
theorem State.dispose_cases (s : State) (i : SlotId) :
    (∃ o : AnnOutcome, s.dispose i = s.freeSlot i o)
      ∨ ∃ (a : RequeueAction) (by_ : Byte), s.dispose i = s.requeue i a by_ := by
  simp only [State.dispose]
  split
  · exact .inl ⟨_, rfl⟩
  · exact .inl ⟨_, rfl⟩
  · exact .inl ⟨_, rfl⟩
  · split
    · exact .inl ⟨_, rfl⟩
    · exact .inr ⟨_, _, rfl⟩
    · exact .inr ⟨_, _, rfl⟩
  · exact .inl ⟨_, rfl⟩

/-! ### Bursts and grants -/

variable (p : Port)

@[simp] theorem Port.endBurst_state : p.endBurst.state = .idle := rfl
@[simp] theorem Port.endBurst_burst : p.endBurst.burst = none := rfl
@[simp] theorem Port.endBurst_arriving : p.endBurst.arriving = p.arriving := rfl
@[simp] theorem Port.endBurst_claim : p.endBurst.claim = p.claim := rfl
@[simp] theorem Port.endBurst_fcs : p.endBurst.fcs = false := rfl
@[simp] theorem Port.endBurst_pointer : p.endBurst.pointer = p.pointer := rfl
@[simp] theorem Port.endBeforeArrival_state : p.endBeforeArrival.state = .idle := rfl
@[simp] theorem Port.endBeforeArrival_burst : p.endBeforeArrival.burst = none := rfl
@[simp] theorem Port.endBeforeArrival_arriving : p.endBeforeArrival.arriving = p.burst := rfl
@[simp] theorem Port.endBeforeArrival_claim : p.endBeforeArrival.claim = p.claim := rfl
@[simp] theorem Port.endBeforeArrival_fcs : p.endBeforeArrival.fcs = false := rfl
@[simp] theorem Port.endBeforeArrival_pointer : p.endBeforeArrival.pointer = p.pointer := rfl

/-- With no earlier burst to arrive, the burst in progress arrives and its end leaves the port IDLE (R142). -/
theorem Port.arrival_of_none {p : Port} (h : p.arriving = none) : p.arrival = p.burst ∧ p.arrived = p.endBurst := by
  simp [Port.arrival, Port.arrived, h]

/-- A burst that ended before a grant arrives first, and what the port does by then goes on (R142, log 26). -/
theorem Port.arrival_of_some {p : Port} {b : Burst} (h : p.arriving = some b) :
    p.arrival = some b ∧ p.arrived = { p with arriving := none } := by
  simp [Port.arrival, Port.arrived, h]

/-- A burst that ended before a grant is the one that arrives after it (R142, log 26). -/
theorem Port.endBeforeArrival_arrival (p : Port) : p.endBeforeArrival.arrival = p.burst := by
  cases h : p.burst <;> simp [Port.arrival, h]

/-- Everything a grant can do (R145, log 26): the arbiter's choice at an IDLE port, or once a burst has ended whose data
is still to arrive; or nothing. -/
theorem State.takeGrant_cases (s : State) :
    (s.port.state = .idle ∧ s.takeGrant = s.arbitrate)
      ∨ ((s.port.state = .engineBurst ∨ s.port.state = .directoryBurst) ∧ s.port.arriving = none ∧ s.anyWaits = true
        ∧ s.takeGrant = (s.setPort s.port.endBeforeArrival).arbitrate)
      ∨ (s.port.state ≠ .idle ∧ s.takeGrant = s) := by
  unfold State.takeGrant
  cases h : s.port.state
  · simp
  all_goals
    cases a : s.port.arriving <;> cases w : s.anyWaits <;> simp

/-! ### The entry of a CLIP -/

/-- A CLIP that is entered afresh begins at clip position 0 with its block set back (R70, R85). -/
theorem Play.enterClip_fresh {p : Play} (h : p.eng.progress = .fresh) :
    p.enterClip = p.withEng { p.eng with progress := .begun, clipPos := 0, dec := p.eng.dec.enterClip } := by
  simp [Play.enterClip, h]

/-- A CLIP that has begun goes on as it stands. -/
theorem Play.enterClip_begun {p : Play} (h : p.eng.progress ≠ .fresh) : p.enterClip = p := by
  simp [Play.enterClip, h]

/-! ### Host claims -/

/-- A revocation ends the claim, sets REVOKED and queues CLAIM (REVOKED, SHARED) (R153). -/
theorem State.revoke_eq (s : State) :
    s.revoke = { s with
      port := { s.port with fcs := false, claim := .none, state := .idle, revoked := true }
      events := s.events.offer EventRecord.claimRevoked } := rfl

end Sys2Proof.Machine
end

