-- ==== Sys2Proof/Laws/Frames.lean ====
section
/-! SUPPORT. What one frame does to each engine, announcement and stage (R1), record by record. -/

namespace Sys2Proof.Machine

/-! ### The frame, record by record -/

/-- Everything a frame does: the offers of the engines' records touch the queue and the count of choices alone. -/
theorem State.takeFrame_eq (s : State) :
    s.takeFrame = { s with
      clock := s.clock.advance
      engines := Vector.ofFn fun e : EngineId => (s.engineFrame e).eng
      slots := slotsAfter s.slots s.engineFrames
      passPending := s.passPending || allEngines.any fun e => s.engineFrames[e].pass
      stages := Vector.ofFn fun z : Zone => s.stages[z].frame (s.zoneSample s.engineFrames z)
      mailbox := { s.mailbox with foldedEnd := s.mailbox.foldedEnd - 1 }
      events := s.takeFrame.events
      choices := s.takeFrame.choices } := by
  simp only [State.takeFrame, State.engineFrames, Fin.getElem_fin, Vector.getElem_ofFn]
  rfl

/-- What engine e gives at a frame stands in the table of all four. -/
@[simp] theorem State.engineFrames_get (s : State) (e : EngineId) : s.engineFrames[(e : Nat)] = s.engineFrame e := by
  simp [State.engineFrames]

/-- Each engine's record after a frame. -/
theorem State.takeFrame_engine (s : State) (e : EngineId) : s.takeFrame.engines[e] = (s.engineFrame e).eng := by
  rw [State.takeFrame_eq]; simp

/-- The slots after the frames of a list of engines: a slot that none of them writes stays. -/
theorem storeSlot_other (outs : Vector FrameOut 4) (i : SlotId) :
    ∀ (l : List EngineId) (v : Vector Slot 16), (∀ e ∈ l, ∀ w ∈ outs[e].slot, w.1 ≠ i) →
      (l.foldl (storeSlot outs) v)[i] = v[i]
  | [], _, _ => rfl
  | e :: rest, v, h => by
    rw [List.foldl_cons, storeSlot_other outs i rest _ fun e' he' => h e' (List.mem_cons_of_mem _ he')]
    have he := h e List.mem_cons_self
    unfold storeSlot
    split
    · next j a w =>
      have ne : ¬ (j : Nat) = i := fun q => he (j, a) w (Fin.ext q)
      simp [ne]
    · rfl

/-- An unbound engine writes no slot. -/
theorem State.engineFrame_unbound {s : State} {e : EngineId} (b : s.engines[e].binding = none) :
    (s.engineFrame e).slot = none := by
  simp only [Fin.getElem_fin] at b
  simp [State.engineFrame, b]

/-- A bound engine's frame is its play side's frame, and then the evaluation of R61. -/
theorem State.engineFrame_eq {s : State} {e : EngineId} {h : Handle} (b : s.engines[e].binding = some h) :
    s.engineFrame e =
      let out := Play.frame s.dir
        { bound := { eng := s.engines[e], slot := s.slots[handleSlot h] }, handle := h, events := [], pass := false }
      let b := out.1.bound.considerRequest s.dir
      { eng := b.eng, slot := some (handleSlot h, b.slot), sample := out.2, events := out.1.events
        pass := out.1.pass } := by
  simp only [Fin.getElem_fin] at b
  simp [State.engineFrame, b]

/-- Evaluating R61 changes the engine's request alone. -/
theorem Bound.considerRequest_frame (b : Bound) (d : Directory) :
    ∃ r, b.considerRequest d = { b with eng := { b.eng with request := r } } := by
  unfold Bound.considerRequest
  split
  · exact ⟨_, rfl⟩
  · exact ⟨b.eng.request, rfl⟩

/-- A request that stands is kept by the evaluation of R61. -/
theorem Bound.considerRequest_standing {b : Bound} {d : Directory} (h : b.eng.request.isSome = true) :
    b.considerRequest d = b := by
  have : b.eng.mayRequest = false := by
    unfold Engine.mayRequest
    cases r : b.eng.request <;> simp_all
  simp [Bound.considerRequest, this]

/-- A halted play side makes no request (R61). -/
theorem Bound.considerRequest_halted {b : Bound} {d : Directory} (h : b.eng.play.stage = .halted) :
    b.considerRequest d = b := by
  have : b.eng.mayRequest = false := by simp [Engine.mayRequest, h]
  simp [Bound.considerRequest, this]

/-- No request is made at the end of a fade (R61). -/
theorem Bound.considerRequest_faded {b : Bound} {d : Directory} (h : 256 ≤ b.eng.fadePos) :
    b.considerRequest d = b := by
  have : b.eng.mayRequest = false := by
    have : ¬ b.eng.fadePos < 256 := by omega
    simp [Engine.mayRequest, this]
  simp [Bound.considerRequest, this]

/-- A bound engine writes its announcement's slot. -/
theorem State.engineFrame_bound {s : State} {e : EngineId} {h : Handle} (b : s.engines[e].binding = some h) :
    ∃ a : Slot, (s.engineFrame e).slot = some (handleSlot h, a) := by
  simp only [Fin.getElem_fin] at b
  simp [State.engineFrame, b]

/-- The announcement bound to engine e has, after a frame, the record that e's own frame leaves: no other engine is
bound to it. -/
theorem State.takeFrame_slot {s : State} (law : s.BindingLaw) {e : EngineId} {h : Handle} {a : Slot}
    (b : s.engines[e].binding = some h) (w : (s.engineFrame e).slot = some (handleSlot h, a)) :
    s.takeFrame.slots[handleSlot h] = a := by
  have mine : s.slots[handleSlot h].engine = some e := ((law.1 e).2 h b).2.1
  have others : ∀ e' : EngineId, e' ≠ e → ∀ x ∈ (s.engineFrame e').slot, x.1 ≠ handleSlot h := by
    intro e' ne x hx same
    cases b' : s.engines[e'].binding with
    | none => rw [State.engineFrame_unbound b'] at hx; cases hx
    | some h' =>
      obtain ⟨a', w'⟩ := State.engineFrame_bound b'
      rw [w'] at hx
      have hx : x = (handleSlot h', a') := (Option.some.inj hx).symm
      have slot : handleSlot h' = handleSlot h := by rw [← same, hx]
      have his : s.slots[handleSlot h'].engine = some e' := ((law.1 e').2 h' b').2.1
      simp only [slot] at his
      exact ne (Option.some.inj (his.symm.trans mine))
  obtain ⟨before, after, split⟩ := List.append_of_mem (mem_allEngines e)
  have nodup : (before ++ e :: after).Nodup := split ▸ (by decide : allEngines.Nodup)
  have last : ∀ e' ∈ after, e' ≠ e := by
    rintro e' mem rfl
    exact (List.nodup_cons.mp (List.nodup_append.mp nodup).2.1).1 mem
  rw [State.takeFrame_eq]
  simp only [slotsAfter, split, List.foldl_append, List.foldl_cons]
  rw [storeSlot_other]
  · simp [storeSlot, w]
  · intro e' mem x hx
    exact others e' (last e' mem) x (by simpa using hx)

/-- A slot that no engine is bound to stays as it is at a frame. -/
theorem State.takeFrame_slot_unbound {s : State} {i : SlotId}
    (free : ∀ e : EngineId, ∀ h ∈ s.engines[e].binding, handleSlot h ≠ i) : s.takeFrame.slots[i] = s.slots[i] := by
  rw [State.takeFrame_eq]
  refine storeSlot_other _ _ _ _ fun e _ x hx same => ?_
  cases b : s.engines[e].binding with
  | none =>
    have := State.engineFrame_unbound b
    simp only [Fin.getElem_fin, State.engineFrames_get, this] at hx
    cases hx
  | some h =>
    obtain ⟨a, w⟩ := State.engineFrame_bound b
    simp only [Fin.getElem_fin, State.engineFrames_get, w] at hx
    cases hx
    exact free e h b same

/-- An unbound engine has nothing to offer. -/
theorem State.engineFrame_events_unbound {s : State} {e : EngineId} (b : s.engines[e].binding = none) :
    (s.engineFrame e).events = [] ∧ (s.engineFrame e).pass = false := by
  simp only [Fin.getElem_fin] at b
  simp [State.engineFrame, b]

/-- Offers of several blocks of which one alone has records: they are taken in their order. -/
theorem mergeOffers_one (n : Nat) (sources : List (List EventRecord)) (one : List EventRecord) (q : EventQueue)
    (c : Nat) (only : sources.filter (fun l => !l.isEmpty) = [one]) :
    mergeOffers (n + 1) sources q c = (one.foldl EventQueue.offer q, c) := by
  simp [mergeOffers, only]

/-! ### The play side -/

/-- The signed value of two bytes, the less significant first (R88, R91). -/
theorem signed16_eq (lo hi : Byte) :
    signed16 lo hi
      = if hi.toNat < 128 then (lo.toNat : Int) + 256 * hi.toNat else (lo.toNat : Int) + 256 * hi.toNat - 65536 := by
  have := lo.isLt
  have := hi.isLt
  have small : lo.toNat + 256 * hi.toNat < 2 ^ 16 := by omega
  rw [signed16, BitVec.toInt_eq_toNat_cond, BitVec.toNat_ofNat, Nat.mod_eq_of_lt small]
  split <;> split <;> omega

/-- The sample that a clip's bytes describe is the one taken, with the bytes whose last use it is. -/
theorem takeSample_of_takesSample {coding : Byte} {d after : Decoder} {left : Nat} {ring rest : List Byte} {sample : Int}
    (h : takesSample coding d left ring rest sample after) :
    takeSample (codingOf coding) d ring left = .sample sample after (ring.length - rest.length) := by
  rcases h with ⟨rfl, rfl, b, rfl, rfl⟩ | ⟨rfl, rfl, lo, hi, rfl, rfl⟩ | ⟨rfl, rfl, h⟩
  · simp [codingOf, takeSample, pcm8Sample]
  · have removed : (lo :: hi :: rest).length - rest.length = 2 := by simp; omega
    rw [removed]
    simp [codingOf, takeSample, signed16_eq]
  · have removed : ∀ b : Byte, (b :: rest).length - rest.length = 1 := by simp
    rcases h with ⟨start, lo, hi, index, b, more, predictor, rfl, rfl, ok, rfl, rfl⟩ | ⟨inside, low, b, more, rfl, rfl, rfl⟩
      | ⟨inside, high, b, rfl, rfl⟩
    · have four : (lo :: hi :: index :: 0#8 :: b :: more).length - (b :: more).length = 4 := by simp
      have enough : ¬ more.length + 1 + 1 + 1 + 1 + 1 < 5 := by omega
      rw [four]
      simp [enough, Nat.min_def, codingOf, takeSample, takeSd4, start, byteAt, signed16_eq,
        Nat.not_lt.mpr ok, codeOf, Decoder.decodeCode, sd4BlockLength]
    · simp [codingOf, takeSample, takeSd4, inside, low, codeOf]
    · rw [removed]
      simp [codingOf, takeSample, takeSd4, inside, high, codeOf, Decoder.decodeCode]

/-- The CLIP under the play cursor begins afresh for an engine that enters it (R70, R85). -/
theorem Engine.inClip_fresh {g : Engine} (h : g.progress = .fresh) :
    g.inClip = { g with
      progress := .begun, clipPos := 0, dec := { g.dec with blockPos := 0, blockLen := 0, nibble := .low } } := by
  simp [Engine.inClip, h]

/-- A CLIP that has begun goes on as it stands. -/
theorem Engine.inClip_begun {g : Engine} (h : g.progress ≠ .fresh) : g.inClip = g := by simp [Engine.inClip, h]

/-- The play cursor's entry into a CLIP is the engine's (R70, R85). -/
theorem Play.enterClip_eng (p : Play) : p.enterClip.eng = p.eng.inClip := by
  unfold Play.enterClip Engine.inClip
  split <;> rfl

/-- The play cursor leaves the last segment of the final pass: it is ENDED, and a PLAYING announcement's completion is
reported (R77, R80). -/
theorem Play.leave_ended {p : Play} (last : p.slot.segments.length ≤ p.eng.play.seg + 1)
    (final : passesRemain p.slot.repeatCount p.eng.play.pass = false) :
    p.leave = p.withEng { p.eng with
      play := { p.eng.play with stage := .ended }
      completionDue := p.eng.completionDue || p.slot.state == .playing } := by
  simp [Play.leave, Nat.not_lt.mpr last, final]

/-- The gap under the cursor is over in the two ways its record can say so (R71, R76). -/
theorem Engine.gapOver_iff (g : Engine) : g.gapOver = true ↔ g.gapPassed := by
  simp [Engine.gapOver]

end Sys2Proof.Machine
end

