-- ==== Sys2Proof/Laws/Host.lean ====
section
/-! SUPPORT. What a data byte of the host can do, and what a CMD write can do (R172, R176, R177), said once. -/

namespace Sys2Proof.Machine

/-! ### Data bytes -/

/-- While RESETn is low no byte is taken (R174). -/
theorem State.hostWrite_in_reset {s : State} (low : s.resetnLow = true) (a : RegAddr) (act : State → State) :
    s.hostWrite a act = s := by
  simp [State.hostWrite, low]

/-- A byte that reaches its register acts there, and the frame goes on. -/
theorem State.hostWrite_takes {s : State} {a : RegAddr} (w : s.takesWrite a) (act : State → State) :
    s.hostWrite a act = { act s with host := (act s).host.advance } := by
  obtain ⟨up, carries⟩ := w
  simp [State.hostWrite, up, carries, State.setHost]

/-- A byte of a read frame writes nothing. -/
theorem State.hostWrite_reads {s : State} {a : RegAddr} (up : s.resetnLow = false) (w : s.host.carries a = false)
    (r : s.host.reads a = true) (act : State → State) : s.hostWrite a act = s.readByte := by
  simp [State.hostWrite, up, w, r]

/-- A byte that is not one of the open frame's does nothing. -/
theorem State.hostWrite_elsewhere {s : State} {a : RegAddr} (w : s.host.carries a = false)
    (r : s.host.reads a = false) (act : State → State) : s.hostWrite a act = s := by
  simp [State.hostWrite, w, r]

/-- Everything a data byte can do. -/
theorem State.hostWrite_cases (s : State) (a : RegAddr) (act : State → State) :
    s.hostWrite a act = s
      ∨ (s.takesWrite a ∧ s.hostWrite a act = { act s with host := (act s).host.advance })
      ∨ (s.resetnLow = false ∧ s.host.reads a = true ∧ s.hostWrite a act = s.readByte) := by
  cases low : s.resetnLow with
  | true => exact .inl (hostWrite_in_reset low a act)
  | false =>
    cases w : s.host.carries a with
    | true => exact .inr (.inl ⟨⟨low, w⟩, hostWrite_takes ⟨low, w⟩ act⟩)
    | false =>
      cases r : s.host.reads a with
      | true => exact .inr (.inr ⟨rfl, rfl, hostWrite_reads low w r act⟩)
      | false => exact .inl (hostWrite_elsewhere w r act)

/-- A byte of a read frame changes the host port alone (R171). -/
theorem State.readByte_eq (s : State) : s.readByte = { s with host := s.readByte.host } := rfl

/-- Outside reset the part acts. -/
theorem State.whenRunning_up {s : State} (up : s.resetnLow = false) (act : State → State) :
    s.whenRunning act = act s := by
  simp [State.whenRunning, up]

/-- In reset it does not. -/
theorem State.whenRunning_low {s : State} (low : s.resetnLow = true) (act : State → State) :
    s.whenRunning act = s := by
  simp [State.whenRunning, low]

/-! ### The mailbox -/

/-- A CMD write while EXECUTING sets overrun and nothing else (R177). -/
theorem State.cmdWrite_executing {s : State} (h : s.mailbox.executing = true) (code : Byte) (body : Body) :
    s.cmdWrite code body = { s with mailbox := { s.mailbox with overrun := true } } := by
  simp [State.cmdWrite, h, State.discardCommand, State.setMailbox]

/-- A command that its body refuses or only answers: the body leaves the latched state t as it is, and the mailbox keeps
the reply. -/
theorem State.hostCommand_answers {s : State} (h : s.takesCommand) (code : Byte) (body : Body) (r : Reply)
    (b : body s.mailbox.p (s.latchCommand code) = (s.latchCommand code, some r)) :
    s.hostCommand code body = s.answered code r.result r.q := by
  obtain ⟨w, idle⟩ := h
  simp only [State.hostCommand, cmdAddr, State.hostWrite_takes w, State.cmdWrite, idle]
  simp only [Bool.false_eq_true, ↓reduceIte]
  have lm : (s.latchCommand code).mailbox.latched = s.mailbox.p := rfl
  rw [lm, b]
  rfl

/-- A command that its body carries out and answers: everything the body did stands, and the mailbox keeps the
reply. The body leaves the mailbox and the host port to the mailbox. -/
theorem State.hostCommand_acts {s : State} (h : s.takesCommand) (code : Byte) (body : Body) (t : State) (r : Reply)
    (b : body s.mailbox.p (s.latchCommand code) = (t, some r)) (mailbox : t.mailbox = (s.latchCommand code).mailbox)
    (host : t.host = s.host) :
    s.hostCommand code body = ({ t with mailbox := s.mailbox } : State).answered code r.result r.q := by
  obtain ⟨w, idle⟩ := h
  simp only [State.hostCommand, cmdAddr, State.hostWrite_takes w, State.cmdWrite, idle]
  simp only [Bool.false_eq_true, ↓reduceIte]
  have lm : (s.latchCommand code).mailbox.latched = s.mailbox.p := rfl
  rw [lm, b]
  simp only [State.endAtOnce, State.endCommand, State.answered, State.setMailbox, mailbox, host]
  rfl

/-- What a latch leaves as it was: everything but the mailbox. -/
theorem State.latchCommand_eq (s : State) (code : Byte) :
    s.latchCommand code = { s with mailbox :=
      { s.mailbox with latched := s.mailbox.p, code := code, overrun := false, executing := true
                       foldedEnd := 0 } } := rfl

@[simp] theorem State.latchCommand_slots (s : State) (c : Byte) : (s.latchCommand c).slots = s.slots := rfl
@[simp] theorem State.latchCommand_zones (s : State) (c : Byte) : (s.latchCommand c).zones = s.zones := rfl
@[simp] theorem State.latchCommand_stages (s : State) (c : Byte) : (s.latchCommand c).stages = s.stages := rfl
@[simp] theorem State.latchCommand_engines (s : State) (c : Byte) : (s.latchCommand c).engines = s.engines := rfl
@[simp] theorem State.latchCommand_poolFree (s : State) (c : Byte) : (s.latchCommand c).poolFree = s.poolFree := rfl
@[simp] theorem State.latchCommand_order (s : State) (c : Byte) : (s.latchCommand c).order = s.order := rfl
@[simp] theorem State.latchCommand_dir (s : State) (c : Byte) : (s.latchCommand c).dir = s.dir := rfl
@[simp] theorem State.latchCommand_port (s : State) (c : Byte) : (s.latchCommand c).port = s.port := rfl
@[simp] theorem State.latchCommand_events (s : State) (c : Byte) : (s.latchCommand c).events = s.events := rfl

/-- The handle checks do not look at the mailbox. -/
@[simp] theorem State.latchCommand_checkHandle (s : State) (c : Byte) (h : Handle) :
    (s.latchCommand c).checkHandle h = s.checkHandle h := rfl

/-! ### Frames -/

/-- A data byte of the open frame counts eight bits and moves the address by the auto-increment (R173). -/
theorem HostPort.advance_frame (h : HostPort) (bits : Nat) (read autoInc : Bool) (a : RegAddr)
    (f : h.frame = some ⟨bits, some ⟨read, autoInc, a⟩⟩) :
    h.advance.frame = some ⟨bits + 8, some ⟨read, autoInc, if autoInc then a + 1#6 else a⟩⟩ := by
  cases autoInc <;> simp [HostPort.advance, HostFrame.advance, f]

/-- A byte that stands for a frame of its own leaves no frame open (log 3). -/
theorem HostPort.advance_none (h : HostPort) (f : h.frame = none) : h.advance = h := by
  cases h; simp_all [HostPort.advance]

/-- A write and a read frame at one address exclude each other. -/
theorem HostPort.not_carries_of_reads (h : HostPort) (a : RegAddr) (r : h.reads a = true) : h.carries a = false := by
  unfold HostPort.reads at r
  unfold HostPort.carries
  split at r
  · split at r <;> simp_all
  · cases r

end Sys2Proof.Machine
end

