-- ==== Sys2Proof/WellFormed.lean ====
section
/-! DEFINITION. Which commands the spec's tables admit, whatever the state: the checks of the operands. -/

namespace Sys2Proof

/-- The eleven command codes of 11.3. -/
def commandCodes : List Byte :=
  [0x10#8, 0x11#8, 0x12#8, 0x13#8, 0x14#8, 0x20#8, 0x30#8, 0x40#8, 0x41#8, 0x42#8, 0x5A#8]

/-- The addresses of the registers whose writes are rows of their own: CMD, IRQC, EVMSK0, EVMSK1, EVPOP, PTCTL and
PTDAT (11.2). -/
def ownRowAddresses : List RegAddr := [0x0A#6, 0x20#6, 0x21#6, 0x22#6, 0x2A#6, 0x30#6, 0x31#6]

/-- A BAD_COMMAND carries a code that names no command (R179). A REGISTER_WRITE goes to a register with no behaviour
of its own, or to a read-only or reserved address (R172). An engine burst carries 1 to 64 data bytes (R61, R62), a
loader burst 8 or one to five entries of 12 bytes (R108). -/
def Instr.wellFormed : Instr → Bool
  | .badCommand code => !commandCodes.contains code
  | .registerWrite a _ => !ownRowAddresses.contains a
  | .engineBurstArrival data => decide (1 ≤ data.length) && decide (data.length ≤ 64)
  | .loaderBurstArrival data =>
      data.length == 8 || (data.length % 12 == 0 && decide (12 ≤ data.length) && decide (data.length ≤ 60))
  | .annOpen | .annAppend | .annSubmit | .annCancel | .annStatus | .zoneSet | .dirLoad | .flashConfig
  | .flashClaim | .flashRelease | .softReset | .cmdWriteDiscarded _ | .evpop _ | .evmskWrite _ _ | .irqcWrite _
  | .ptctlWrite _ | .ptdatWrite _ | .ptByteEnd _ | .powerOnReset | .pinReset | .frame | .tick | .volumeSlewStep
  | .deadlineExpiry _ | .idleTimerExpiry _ | .holdExpiry | .schedulingPass | .start _ | .engineFadeDone _
  | .fadeEnd _ | .completion _ | .zoneFadeEnd _ | .biasReady _ | .biasOff _ | .gapEnd _ | .repeatGapEnd _
  | .portGrant | .resetnHeldLow | .hcsFall | .addressByte _ | .hcsRise => true

end Sys2Proof
end

