-- ==== Sys2Proof/Laws/PerInstr.lean ====
section
/-! SUPPORT. The family OperandsChecked: the check of a command's operands admits exactly what the spec's tables admit,
said of each row by itself. -/

namespace Sys2Proof.Laws

/-- What the spec's tables ask of a command's operands, row by row: a BAD_COMMAND's code names none of the eleven
commands (R179); a REGISTER_WRITE goes to an address whose write is not a row of its own (11.2); an engine burst has 1
to 64 data bytes (R62); a loader burst has the 8 bytes of the header or those of one to five entries (R108). Every other
row admits every operand. -/
def OperandsChecked.admits : Instr → Prop
  | .badCommand code => ∀ c ∈ commandCodes, code ≠ c
  | .registerWrite a _ => ∀ b ∈ ownRowAddresses, a ≠ b
  | .engineBurstArrival data => 1 ≤ data.length ∧ data.length ≤ 64
  | .loaderBurstArrival data => data.length = 8 ∨ ∃ n, 1 ≤ n ∧ n ≤ 5 ∧ data.length = 12 * n
  | .annOpen | .annAppend | .annSubmit | .annCancel | .annStatus | .zoneSet | .dirLoad | .flashConfig
  | .flashClaim | .flashRelease | .softReset | .cmdWriteDiscarded _ | .evpop _ | .evmskWrite _ _ | .irqcWrite _
  | .ptctlWrite _ | .ptdatWrite _ | .ptByteEnd _ | .powerOnReset | .pinReset | .frame | .tick | .volumeSlewStep
  | .deadlineExpiry _ | .idleTimerExpiry _ | .holdExpiry | .schedulingPass | .start _ | .engineFadeDone _
  | .fadeEnd _ | .completion _ | .zoneFadeEnd _ | .biasReady _ | .biasOff _ | .gapEnd _ | .repeatGapEnd _
  | .portGrant | .resetnHeldLow | .hcsFall | .addressByte _ | .hcsRise => True

/-- The check and the tables agree. -/
def OperandsChecked.Statement (i : Instr) : Prop := i.wellFormed = true ↔ OperandsChecked.admits i

namespace OperandsChecked

theorem annOpen : Statement .annOpen := iff_of_true rfl trivial

theorem annAppend : Statement .annAppend := iff_of_true rfl trivial

theorem annSubmit : Statement .annSubmit := iff_of_true rfl trivial

theorem annCancel : Statement .annCancel := iff_of_true rfl trivial

theorem annStatus : Statement .annStatus := iff_of_true rfl trivial

theorem zoneSet : Statement .zoneSet := iff_of_true rfl trivial

theorem dirLoad : Statement .dirLoad := iff_of_true rfl trivial

theorem flashConfig : Statement .flashConfig := iff_of_true rfl trivial

theorem flashClaim : Statement .flashClaim := iff_of_true rfl trivial

theorem flashRelease : Statement .flashRelease := iff_of_true rfl trivial

theorem softReset : Statement .softReset := iff_of_true rfl trivial

theorem badCommand (code : Byte) : Statement (.badCommand code) := by
  simp [Statement, admits, Instr.wellFormed, commandCodes]

theorem cmdWriteDiscarded (code : Byte) : Statement (.cmdWriteDiscarded code) := iff_of_true rfl trivial

theorem registerWrite (addr : RegAddr) (value : Byte) : Statement (.registerWrite addr value) := by
  simp [Statement, admits, Instr.wellFormed, ownRowAddresses]

theorem evpop (value : Byte) : Statement (.evpop value) := iff_of_true rfl trivial

theorem evmskWrite (reg : MaskReg) (value : Byte) : Statement (.evmskWrite reg value) := iff_of_true rfl trivial

theorem irqcWrite (value : Byte) : Statement (.irqcWrite value) := iff_of_true rfl trivial

theorem ptctlWrite (value : Byte) : Statement (.ptctlWrite value) := iff_of_true rfl trivial

theorem ptdatWrite (value : Byte) : Statement (.ptdatWrite value) := iff_of_true rfl trivial

theorem ptByteEnd (received : Byte) : Statement (.ptByteEnd received) := iff_of_true rfl trivial

theorem powerOnReset : Statement .powerOnReset := iff_of_true rfl trivial

theorem pinReset : Statement .pinReset := iff_of_true rfl trivial

theorem frame : Statement .frame := iff_of_true rfl trivial

theorem tick : Statement .tick := iff_of_true rfl trivial

theorem volumeSlewStep : Statement .volumeSlewStep := iff_of_true rfl trivial

theorem deadlineExpiry (slot : SlotId) : Statement (.deadlineExpiry slot) := iff_of_true rfl trivial

theorem idleTimerExpiry (zone : Zone) : Statement (.idleTimerExpiry zone) := iff_of_true rfl trivial

theorem holdExpiry : Statement .holdExpiry := iff_of_true rfl trivial

theorem schedulingPass : Statement .schedulingPass := iff_of_true rfl trivial

theorem start (slot : SlotId) : Statement (.start slot) := iff_of_true rfl trivial

theorem engineFadeDone (engine : EngineId) : Statement (.engineFadeDone engine) := iff_of_true rfl trivial

theorem fadeEnd (engine : EngineId) : Statement (.fadeEnd engine) := iff_of_true rfl trivial

theorem completion (engine : EngineId) : Statement (.completion engine) := iff_of_true rfl trivial

theorem zoneFadeEnd (zone : Zone) : Statement (.zoneFadeEnd zone) := iff_of_true rfl trivial

theorem biasReady (zone : Zone) : Statement (.biasReady zone) := iff_of_true rfl trivial

theorem biasOff (zone : Zone) : Statement (.biasOff zone) := iff_of_true rfl trivial

theorem gapEnd (engine : EngineId) : Statement (.gapEnd engine) := iff_of_true rfl trivial

theorem repeatGapEnd (engine : EngineId) : Statement (.repeatGapEnd engine) := iff_of_true rfl trivial

theorem portGrant : Statement .portGrant := iff_of_true rfl trivial

theorem engineBurstArrival (data : List Byte) : Statement (.engineBurstArrival data) := by
  simp [Statement, admits, Instr.wellFormed]

theorem loaderBurstArrival (data : List Byte) : Statement (.loaderBurstArrival data) := by
  simp only [Statement, admits, Instr.wellFormed, Bool.or_eq_true, Bool.and_eq_true, beq_iff_eq, decide_eq_true_eq]
  constructor
  · rintro (h | ⟨⟨h, low⟩, high⟩)
    · exact .inl h
    · exact .inr ⟨data.length / 12, by omega, by omega, by omega⟩
  · rintro (h | ⟨n, low, high, h⟩)
    · exact .inl h
    · exact .inr ⟨⟨by omega, by omega⟩, by omega⟩

theorem resetnHeldLow : Statement .resetnHeldLow := iff_of_true rfl trivial

theorem hcsFall : Statement .hcsFall := iff_of_true rfl trivial

theorem addressByte (byte : Byte) : Statement (.addressByte byte) := iff_of_true rfl trivial

theorem hcsRise : Statement .hcsRise := iff_of_true rfl trivial

end OperandsChecked

end Sys2Proof.Laws
end

