-- ==== Sys2Proof/Tests/Slice0.lean ====
section
/-! SUPPORT. Tests: operands that the check refuses; the worked examples of the spec's chapters; and for every statement
with hypotheses a witness that meets them. Expected values come from the spec's examples and tables, or are worked out by
hand from its rules. -/

namespace Sys2Proof.Tests

open Sys2Proof Sys2Proof.Machine

/-! ### Operands the check refuses -/

theorem test_badCommand_with_a_command_code_is_ill_formed : Instr.wellFormed (.badCommand 0x5A#8) = false := by decide

theorem test_registerWrite_to_an_own_row_is_ill_formed : Instr.wellFormed (.registerWrite 0x2A#6 0#8) = false := by
  decide

theorem test_empty_engine_burst_is_ill_formed : Instr.wellFormed (.engineBurstArrival []) = false := by decide

theorem test_engine_burst_of_65_bytes_is_ill_formed :
    Instr.wellFormed (.engineBurstArrival (List.replicate 65 0#8)) = false := by decide

theorem test_loader_burst_of_13_bytes_is_ill_formed :
    Instr.wellFormed (.loaderBurstArrival (List.replicate 13 0#8)) = false := by decide

theorem test_loader_burst_of_72_bytes_is_ill_formed :
    Instr.wellFormed (.loaderBurstArrival (List.replicate 72 0#8)) = false := by decide

/-- No row of the table has bits, so no word spells a command. -/
theorem test_no_word_spells_a_command : decodeTableWord 8 0x10 = none := by decide

/-! ### States for the tests -/

/-- The state a command leaves. -/
def after (c : Instr) (s : State) : State :=
  match exec c s with
  | .next t => t
  | .fault _ => s
  | .refused _ => s

/-- The state that several commands leave, the first one first. -/
def afterAll (cs : List Instr) (s : State) : State := cs.foldl (fun t c => after c t) s

/-- The parameter registers are set. -/
def withParams (s : State) (p : Params) : State := { s with mailbox := { s.mailbox with p := p } }

/-- A directory of two clips: a PCM8 clip of 200 bytes at 16 kHz and an SD4 clip of 104 bytes at 16 kHz. -/
def twoClips : Directory :=
  { Directory.reset with
    state := .valid
    entries :=
      [ { start := 0x000100#24, length := 200, coding := 1#8, rate := 2#8, trim := 16#8, valid := true }
      , { start := 0x000200#24, length := 104, coding := 3#8, rate := 2#8, trim := 16#8, valid := true } ] }

/-- A list of one CLIP, one GAP and one MARK. -/
def someSegments : List Segment := [.clip 0 none false, .gap 1, .mark 5#8]

/-- An announcement at priority 3 for Z0, with the given state and list. -/
def announcement (state : AnnState) (segments : List Segment) : Slot :=
  { Slot.free 0#4 with
    state := state, priority := 3, zoneMask := 1#4, policy := .resume, repeatCount := 1, deadlineSetting := 2
    tag := 40#8, segments := segments }

/-- The part with one announcement, in slot 0, and the two clips. -/
def having (a : Slot) : State :=
  { State.reset with
    slots := State.reset.slots.set 0 a, poolFree := 256 - a.segments.length
    order := if a.state.scheduled then [0] else [], dir := twoClips }

/-- A stage that is READY. -/
def readyStage : Stage := { Stage.reset with bias := .ready, level := 1024 }

/-- The part after reset with one stage as given. -/
def withStage (z : Zone) (g : Stage) : State := { State.reset with stages := State.reset.stages.set z g }

/-- The part with one announcement granted Z0, which is READY. -/
def granted : State :=
  { having { announcement .granted someSegments with effZones := 1#4, deadline := some 0 } with
    zones := State.reset.zones.set 0 { owner := none, claimant := some 0#8 }
    stages := State.reset.stages.set 0 readyStage }

/-- The part with one announcement in the given state, bound to E0 and owning Z0. -/
def bound (a : Slot) (e : Engine) : State :=
  { having { a with effZones := 1#4, engine := some 0 } with
    zones := State.reset.zones.set 0 { owner := some 0#8, claimant := none }
    stages := State.reset.stages.set 0 readyStage
    engines := State.reset.engines.set 0 { e with binding := some 0#8 } }

/-- An engine in the given state whose play and fetch cursors stand at segment k. -/
def engineAt (state : EngineState) (k : Nat) (progress : Progress) : Engine :=
  { Engine.idle 0#8 with
    state := state, play := { pass := 1, seg := k, stage := .segment }, progress := progress
    fetch := { pass := 1, seg := k, offset := 0, phase := .data, lap := .same } }

/-- One announcement PLAYING its CLIP. -/
def playing : State := bound (announcement .playing someSegments) (engineAt .running 0 .begun)

/-- One announcement STOPPING, preempted, its engine FADING at the given position. -/
def stopping (position : Nat) : State :=
  bound { announcement .stopping someSegments with stop := some ⟨.preempted, false, some 0x15#8⟩ }
    { engineAt .fading 0 .begun with fadePos := position }

/-- The part with a HELD claim. -/
def held (mode : ClaimMode) (hold : Option Nat) (ending : Option EndPending) (byte : Option PassByte) : State :=
  { State.reset with port :=
      { Port.reset with state := .hostHeld, claim := .held mode hold ending, fcs := true, ptByte := byte } }

/-- The part with a burst of n bytes in progress for the requester. -/
def bursting (s : State) (who : Requester) (n : Nat) : State :=
  { s with port := { s.port with
      state := match who with
        | .engine _ _ => .engineBurst
        | .loader _ => .directoryBurst
      fcs := true
      burst := some { requester := who, addr := 0x100#24, count := n, received := [], clock := .half, opcode := 3#8
                      dummy := 0 } } }

/-! ### Chapter 1: a slot reused and an old handle -/

/-- ANN_OPEN at a priority. -/
def openAt (priority : Byte) (s : State) : State := after .annOpen (withParams s #v[priority, 1#8, 0#8, 1#8, 0#8, 0#8, 0#8, 0#8])

/-- ANN_APPEND of a MARK. -/
def appendTo (h : Handle) (s : State) : State := after .annAppend (withParams s #v[h, 3#8, 9#8, 0#8, 0#8, 0#8, 0#8, 0#8])

/-- Steps 1 to 4 of the example of chapter 1. -/
def chapter1Step4 : State :=
  appendTo 1#8 (appendTo 1#8 (appendTo 0#8 (appendTo 0#8 (appendTo 0#8 (openAt 5#8 (openAt 3#8 State.reset))))))

/-- Step 5 of the example of chapter 1. -/
def chapter1Step5 : State := after .annCancel (withParams chapter1Step4 #v[0#8, 0#8, 0#8, 0#8, 0#8, 0#8, 0#8, 0#8])

theorem test_annOpen_returns_the_handle_and_the_free_slots :
    (openAt 5#8 (openAt 3#8 State.reset)).mailbox.q = ⟨0x01#8, 14#8, 0#8, 0#8⟩ := by decide

theorem test_annAppend_takes_from_the_pool : chapter1Step4.poolFree = 251 ∧ chapter1Step4.mailbox.q.q0 = 2#8 := by
  decide

theorem test_annCancel_of_building_frees_the_slot :
    chapter1Step5.poolFree = 254 ∧ chapter1Step5.freeSlots = 15 ∧ chapter1Step5.slots[0].generation = 1#4
      ∧ chapter1Step5.events.records[1]? = some
          { kind := .finished, handle := 0#8, tag := 0#8, d0 := 2#8, d1 := 0#8, d2 := 0#8 } := by
  decide

theorem test_annStatus_of_a_free_slot_is_bad_handle :
    (after .annStatus (withParams chapter1Step5 (Vector.replicate 8 0#8))).mailbox.result = .badHandle := by decide

theorem test_annStatus_of_an_old_handle_is_stale :
    (openAt 7#8 chapter1Step5).mailbox.q.q0 = 0x10#8
      ∧ (after .annStatus (withParams (openAt 7#8 chapter1Step5) (Vector.replicate 8 0#8))).mailbox.result
        = .staleHandle := by
  decide

theorem test_annSubmit_arms_the_deadline :
    (after .annSubmit (having (announcement .building someSegments))).slots[0].deadline = some 200 := by decide

theorem test_annSubmit_names_the_first_bad_clip :
    (after .annSubmit (having (announcement .building [.gap 5, .clip 300 none false]))).mailbox.q
      = ⟨1#8, 44#8, 1#8, 0#8⟩ := by
  decide

/-! ### Chapter 2: the pass of the example -/

/-- One announcement of the example of chapter 2. -/
def chapter2Slot (priority : Nat) (mask : ZoneSet) (state : AnnState) (engine : Option EngineId) (own : ZoneSet) : Slot :=
  { announcement state [.gap 1] with priority := priority, zoneMask := mask, engine := engine, effZones := own }

/-- The example of chapter 2 after the submit of B: P, Q, A, C, D and B in slots 0 to 5. -/
def chapter2 : State :=
  { State.reset with
    slots := (((((State.reset.slots.set 0 (chapter2Slot 2 1#4 .playing (some 0) 1#4)).set 1
        (chapter2Slot 5 4#4 .playing (some 1) 4#4)).set 2 (chapter2Slot 4 6#4 .queued none 0#4)).set 3
        (chapter2Slot 3 10#4 .queued none 0#4)).set 4 (chapter2Slot 1 8#4 .queued none 0#4)).set 5
        (chapter2Slot 4 1#4 .queued none 0#4)
    order := [0, 1, 2, 3, 4, 5], poolFree := 250, passPending := true
    zones := (State.reset.zones.set 0 { owner := some 0#8, claimant := none }).set 2
      { owner := some 1#8, claimant := none }
    stages := ((State.reset.stages.set 0 readyStage).set 1 { readyStage with idleTimer := some 9 }).set 2 readyStage
    engines := (State.reset.engines.set 0
        { engineAt .running 0 .begun with binding := some 0#8, framesRemaining := 9 }).set 1
      { engineAt .running 0 .begun with binding := some 1#8, framesRemaining := 9 } }

theorem test_schedulingPass_grants_B_alone :
    (allSlots.map fun i => (after .schedulingPass chapter2).slots[i].state).take 6
      = [.stopping, .playing, .queued, .queued, .queued, .granted]
      ∧ (after .schedulingPass chapter2).slots[0].stop = some ⟨.preempted, false, some 0x05#8⟩
      ∧ (after .schedulingPass chapter2).zones[0] = { owner := some 0x00#8, claimant := some 0x05#8 } := by
  decide +kernel

/-- Slot 1's fade on Z0 has ended, and slot 0's announcement waits for the zone. -/
def fadeEnded : State :=
  { granted with
    slots := granted.slots.set 1
      { announcement .stopping [.gap 1] with
        effZones := 1#4, engine := some 0, playPos := ⟨3, 1⟩, stop := some ⟨.preempted, false, some 0x00#8⟩ }
    zones := State.reset.zones.set 0 { owner := some 0x01#8, claimant := some 0#8 }
    engines := State.reset.engines.set 0
      { engineAt .fading 0 .begun with binding := some 0x01#8, fadePos := 256, fadeEndDue := true } }

/-- The granted announcement's start is due. -/
def startDue : State := { granted with slots := granted.slots.set 0 { granted.slots[0] with startDue := true } }

theorem test_fadeEnd_requeues_and_makes_the_start_due :
    (after (.fadeEnd 0) fadeEnded).slots[0].startDue = true
      ∧ (after (.fadeEnd 0) fadeEnded).slots[1].resume = some ⟨3, 1⟩ := by
  decide

theorem test_start_binds_the_lowest_engine :
    (after (.start 0) startDue).slots[0].engine = some 0
      ∧ ((after (.start 0) startDue).engines[0].request.map fun r => (r.addr, r.count)) = some (0x000100#24, 8) := by
  decide

theorem test_deadlineExpiry_frees_with_expired :
    (after (.deadlineExpiry 0) granted).events.records[1]? = some
      { kind := .finished, handle := 0#8, tag := 40#8, d0 := 4#8, d1 := 0#8, d2 := 0#8 } := by
  decide

/-! ### Chapter 3: gaps, faults and fades -/

/-- The play side of the example of chapter 3 at frame 601: clip 7 has given its last frame, and the clip behind the
MARK is faulted. -/
def chapter3At601 : State :=
  bound (announcement .playing [.clip 0 none false, .mark 5#8, .clip 1 none true, .gap 20])
    { engineAt .running 0 .begun with
      clipPos := 200, dec := { Decoder.cleared with phase := 3 }
      fetch := { pass := 1, seg := 4, offset := 0, phase := .done, lap := .same } }

theorem test_frame_passes_mark_and_faulted_clip :
    (after .frame chapter3At601).events.records.tail
      = [ { kind := .mark, handle := 0#8, tag := 40#8, d0 := 5#8, d1 := 1#8, d2 := 1#8 }
        , { kind := .segmentFault, handle := 0#8, tag := 40#8, d0 := 2#8, d1 := 1#8, d2 := 1#8 } ] := by
  decide

theorem test_frame_enters_the_gap_behind_them :
    (after .frame chapter3At601).engines[0].framesRemaining = 959
      ∧ (after .frame chapter3At601).slots[0].playPos = ⟨3, 1⟩
      ∧ (after .frame chapter3At601).slots[0].faultCount = 1 := by
  decide

/-- R85: a faulted CLIP is entered like any other, so that the block counts of the SD4 clip before it are gone behind
it. -/
theorem test_frame_sets_the_block_back_at_a_faulted_clip :
    (after .frame { chapter3At601 with
      engines := chapter3At601.engines.set 0 { chapter3At601.engines[0] with
        dec := { Decoder.cleared with phase := 3, blockPos := 128, blockLen := 128, nibble := .high } } }).engines[0].dec
      = Decoder.cleared := by
  decide

/-- A gap that has given its last frame, at the end of the list. -/
def gapOver : State :=
  bound (announcement .playing [.gap 1])
    { engineAt .running 0 .begun with fetch := { pass := 1, seg := 1, offset := 0, phase := .done, lap := .same } }

theorem test_gapEnd_then_frame_reports_completion :
    (afterAll [.gapEnd 0, .frame] gapOver).engines[0].completionDue = true
      ∧ (afterAll [.gapEnd 0, .frame, .completion 0] gapOver).events.records[1]? = some
        { kind := .finished, handle := 0#8, tag := 40#8, d0 := 1#8, d1 := 0#8, d2 := 0#8 } := by
  decide

theorem test_engineFadeDone_reports_at_256 :
    (after (.engineFadeDone 0) (stopping 256)).engines[0].fadeEndDue = true
      ∧ (after (.engineFadeDone 0) (stopping 255)).engines[0].fadeEndDue = false := by
  decide

theorem test_completion_advances_the_epoch :
    (afterAll [.gapEnd 0, .frame, .completion 0] gapOver).engines[0].epoch = 1#8 := by decide

/-- The header of a PCM8 clip of 200 bytes at 16 kHz: C5h, 3Ah, 01h, 02h, C8h, 00h, 00h and their exclusive-or. -/
def clipHeader : List Byte := [0xC5#8, 0x3A#8, 1#8, 2#8, 0xC8#8, 0#8, 0#8, 0x34#8]

/-- A PRIMING engine whose HEADER burst runs. -/
def primingHeader : State :=
  bursting (bound (announcement .playing someSegments)
    { engineAt .priming 0 .fresh with
      fetch := { pass := 1, seg := 0, offset := 0, phase := .header, lap := .same }
      request := some { kind := .header, addr := 0x100#24, count := 8, epoch := 0#8, granted := true
                        dropped := false } }) (.engine 0 0#8) 8

theorem test_engineBurstArrival_accepts_the_header :
    (after (.engineBurstArrival clipHeader) primingHeader).engines[0].fetch.phase = .data
      ∧ ((after (.engineBurstArrival clipHeader) primingHeader).engines[0].request.map fun r => (r.addr, r.count))
        = some (0x000108#24, 64) := by
  decide

theorem test_engineBurstArrival_marks_a_mismatch :
    (after (.engineBurstArrival (clipHeader.set 7 0#8)) primingHeader).slots[0].segments[0]?
      = some (.clip 0 none true) := by
  decide

/-! ### Chapter 4: the first block of an SD4 clip -/

/-- An engine at an SD4 clip with a trim override of 24, with the first six bytes of the example in its ring. -/
def chapter4 : State :=
  bound (announcement .playing [.clip 1 (some 24) false])
    { engineAt .running 0 .fresh with ring := [0xE8#8, 0x03#8, 0x14#8, 0x00#8, 0xB3#8, 0x7F#8] }

/-- The sample that reaches Z0 in the n-th frame of the example. -/
def chapter4Sample (n : Nat) : Int := (afterAll (List.replicate n .frame) chapter4).stages[0].lastSample

theorem test_sd4_codes_decode :
    (([0x3#4, 0xB#4, 0xF#4, 0x7#4].foldl Decoder.decodeCode
        { Decoder.cleared with predictor := 1000, stepIndex := 20 }).predictor,
      ([0x3#4, 0xB#4, 0xF#4, 0x7#4].foldl Decoder.decodeCode
        { Decoder.cleared with predictor := 1000, stepIndex := 20 }).stepIndex) = (1157, 34) := by
  decide

theorem test_frames_of_the_first_sd4_samples :
    [1, 2, 3, 4, 8, 12].map chapter4Sample = [541, 1083, 1626, 1588, 1360, 1735] := by
  decide

theorem test_sd4_saturates :
    (Decoder.decodeCode { Decoder.cleared with predictor := 32000, stepIndex := 48 } 0x5#4).predictor = 32767 := by
  decide

/-! ### Chapter 5: a directory of six entries -/

/-- The twelve bytes of one entry of the example. -/
def entryBytes (start : List Byte) (length : List Byte) (coding rate trim flags : Byte) : List Byte :=
  start ++ length ++ [coding, rate, trim, flags, 0#8, 0#8]

/-- Entries 0 to 4 of the example of chapter 5. -/
def chapter5Entries : List (List Byte) :=
  [ entryBytes [0x00#8, 0x01#8, 0x01#8] [0x00#8, 0x7D#8, 0#8] 2#8 2#8 16#8 1#8
  , entryBytes [0x00#8, 0x80#8, 0x01#8] [0xE8#8, 0x03#8, 0#8] 1#8 2#8 16#8 0#8
  , entryBytes [0x00#8, 0x00#8, 0x02#8] [0xE9#8, 0x03#8, 0#8] 2#8 2#8 16#8 1#8
  , entryBytes [0x00#8, 0x10#8, 0x02#8] [0xE8#8, 0x03#8, 0#8] 3#8 2#8 16#8 1#8
  , entryBytes [0x00#8, 0x20#8, 0x02#8] [0x82#8, 0x00#8, 0#8] 3#8 2#8 20#8 1#8 ]

/-- Entry 5 of the example. -/
def chapter5Last : List Byte := entryBytes [0x00#8, 0x30#8, 0x02#8] [0xF4#8, 0x01#8, 0#8] 1#8 5#8 16#8 1#8

/-- The load of the example up to its second entry burst. -/
def chapter5 : State :=
  afterAll [.dirLoad, .portGrant, .loaderBurstArrival [0xA2#8, 0x4C#8, 1#8, 0#8, 6#8, 0#8, 0x25#8, 0x06#8], .portGrant,
    .loaderBurstArrival chapter5Entries.flatten, .portGrant]
    (withParams State.reset #v[0#8, 0#8, 1#8, 0#8, 0#8, 0#8, 0#8, 0#8])

theorem test_loaderBurstArrival_judges_and_sums :
    chapter5.dir.invalid = 3 ∧ (chapter5.dir.progress.map fun p => p.sum) = some 1255#16
      ∧ (chapter5.port.burst.map fun b => (b.addr, b.count)) = some (0x010044#24, 12) := by
  decide

theorem test_loaderBurstArrival_ends_valid :
    (after (.loaderBurstArrival chapter5Last) chapter5).dir.state = .valid
      ∧ (after (.loaderBurstArrival chapter5Last) chapter5).dir.entries.map (fun e => e.valid)
        = [true, false, false, true, false, false]
      ∧ (after (.loaderBurstArrival chapter5Last) chapter5).events.records[1]? = some
        { kind := .directory, handle := 0#8, tag := 0#8, d0 := 0#8, d1 := 6#8, d2 := 4#8 } := by
  decide

theorem test_dirLoad_counts_the_load : chapter5.dir.loadNumber = 1#8 := by decide

/-! ### Chapter 6: one zone through a day's work -/

theorem test_dac_codes_of_the_example :
    dacCode 1024 (audioTerm 16000 96) = 2798 ∧ dacCode 1024 (audioTerm (-8000) 96) = 1673
      ∧ dacCode 1024 (audioTerm (faded (-8000) 128) 96) = 1861 ∧ dacCode 512 0 = 1024 := by
  decide

theorem test_zoneSet_disable_starts_the_zone_fade :
    (after .zoneSet { playing with stages := State.reset.stages.set 0 { readyStage with lastSample := -8000 } }).stages[0].fade
      = some ⟨0, -8000, .disable⟩ := by
  decide

theorem test_zoneSet_disable_requeues_by_policy :
    (after .zoneSet playing).events.records[1]? = some
      { kind := .preempted, handle := 0#8, tag := 40#8, d0 := 2#8, d1 := 0xFF#8, d2 := 0#8 } := by
  decide

theorem test_biasReady_begins_the_idle_hold :
    (after (.biasReady 1) (withStage 1 { Stage.reset with bias := .rampUp, level := 1024 })).stages[1].idleTimer
      = some 500 := by
  decide

theorem test_biasOff_queues_zone_off :
    (after (.biasOff 2) (withStage 2 { Stage.reset with bias := .rampDown })).events.records[1]? = some
      { kind := .zone, handle := 0#8, tag := 0#8, d0 := 2#8, d1 := 0#8, d2 := 0#8 } := by
  decide

theorem test_idleTimerExpiry_ramps_down :
    (after (.idleTimerExpiry 3) (withStage 3 { readyStage with idleTimer := some 0 })).stages[3].bias = .rampDown := by
  decide

theorem test_zoneFadeEnd_ramps_a_disabled_zone_down :
    (after (.zoneFadeEnd 0) (withStage 0 { readyStage with enabled := false, fade := some ⟨256, 5, .disable⟩ })).stages[0].bias = .rampDown := by
  decide

/-! ### Chapter 7: a shared claim among three streams -/

/-- An engine with a request that waits. -/
def asking (kind : BurstKind) (count : Nat) : Engine :=
  { engineAt .running 0 .begun with
    request := some { kind := kind, addr := 0x100#24, count := count, epoch := 0#8, granted := false, dropped := false } }

/-- The example of chapter 7 at the grant of the claim: E0, E1 and E2 wait, and the pointer names E1. -/
def chapter7 : State :=
  { State.reset with
    port := { Port.reset with claim := .waiting .shared, pointer := 1 }
    engines := #v[asking .header 8, asking .data 64, asking .data 64, Engine.idle 0#8] }

theorem test_portGrant_takes_the_claim_first :
    (after .portGrant chapter7).port.claim = .held .shared (some 4) none
      ∧ (after .portGrant chapter7).events.records[1]? = some
        { kind := .claim, handle := 0#8, tag := 0#8, d0 := 1#8, d1 := 0#8, d2 := 0#8 } := by
  decide

/-- R142: the grant of a claim may be taken before the arrival of the burst that ended, so that CLAIM (HELD) stands
before DIRECTORY. -/
theorem test_portGrant_before_the_arrival :
    let s := afterAll [.dirLoad, .portGrant, .flashClaim, .portGrant, .loaderBurstArrival (List.replicate 8 0#8)]
      State.reset
    s.events.records.map (fun r => r.kind) = [.resetDone, .claim, .directory] ∧ s.port.state = .hostHeld
      ∧ s.port.arriving = none := by
  decide

theorem test_portGrant_goes_round_the_engines :
    (afterAll [.portGrant, .flashRelease, .portGrant] chapter7).port.pointer = 2
      ∧ (afterAll [.portGrant, .flashRelease, .portGrant] chapter7).engines[2].reserved = 64 := by
  decide

theorem test_holdExpiry_revokes :
    (after .holdExpiry (held .shared (some 0) none none)).port.revoked = true
      ∧ (after .holdExpiry (held .shared (some 0) none none)).port.state = .idle := by
  decide

theorem test_ptdatWrite_then_byte_end :
    (afterAll [.ptdatWrite 0x9F#8, .ptByteEnd 0xEF#8] (held .shared (some 4) none none)).readRegister 0x31#6
      = 0xEF#8 := by
  decide

theorem test_ptctlWrite_without_a_claim_sets_notOwner :
    (after (.ptctlWrite 1#8) State.reset).readRegister 0x32#6 = 0x10#8 := by decide

theorem test_flashConfig_sets_the_hold_limit :
    (after .flashConfig (withParams State.reset #v[1#8, 0x0B#8, 1#8, 12#8, 0#8, 0#8, 0#8, 0#8])).port.holdLimit
      = 12 := by
  decide

theorem test_flashClaim_exclusive_beside_an_announcement_is_busy :
    (after .flashClaim (withParams granted #v[1#8, 0#8, 0#8, 0#8, 0#8, 0#8, 0#8, 0#8])).mailbox.result = .busy := by
  decide

theorem test_flashRelease_waits_for_the_byte :
    (after .flashRelease (held .shared (some 4) none (some ⟨1#8, .half⟩))).stat = 0x41#8
      ∧ (afterAll [.flashRelease, .ptByteEnd 2#8] (held .shared (some 4) none (some ⟨1#8, .half⟩))).stat = 0#8 := by
  decide

/-! ### Chapter 8: a queue that fills -/

/-- An ordinary record. -/
def started (h : Handle) : EventRecord := { kind := .started, handle := h, tag := 0#8, d0 := 0#8, d1 := 0#8, d2 := 0#8 }

/-- The queue at the start of the example of chapter 8. -/
def chapter8 : EventQueue :=
  { records := List.replicate 30 (started 0#8), mask0 := 0x1F#5, mask1 := 0x3#3, irqEnable := true }

theorem test_queue_overflows_as_in_the_example :
    ((((chapter8.offer { started 0x21#8 with kind := .finished }).offer (EventRecord.zone 1 .ready)).offer
      { started 4#8 with kind := .mark }).offer (EventRecord.claimHeld .shared)).records.getLast?
        = some { EventRecord.overflow with d0 := 2#8 } := by
  decide

theorem test_evpop_removes_the_head :
    (after (.evpop 0#8) { State.reset with events := chapter8 }).readRegister 0x23#6 = 29#8 := by decide

theorem test_evpop_of_an_empty_queue_changes_nothing :
    (afterAll [.evpop 0#8, .evpop 0#8] State.reset).events.records = [] := by decide

theorem test_evmskWrite_keeps_its_bits :
    (after (.evmskWrite .evmsk1 0xFE#8) State.reset).readRegister 0x22#6 = 0x06#8 := by decide

theorem test_irqcWrite_asserts_irqn : (after (.irqcWrite 0x01#8) State.reset).irqnAsserted = true := by decide

/-! ### Chapter 9: two commands and an overrun; frames; resets -/

theorem test_cmdWriteDiscarded_keeps_the_result :
    (after (.cmdWriteDiscarded 0x11#8) (openAt 3#8 State.reset)).readRegister 0x01#6 = 0x02#8
      ∧ (after (.cmdWriteDiscarded 0x11#8) (openAt 3#8 State.reset)).readRegister 0x0A#6 = 0x10#8 := by
  decide

theorem test_next_command_clears_the_overrun :
    (appendTo 0#8 (after (.cmdWriteDiscarded 0x11#8) (openAt 3#8 State.reset))).readRegister 0x01#6 = 0#8
      ∧ (appendTo 0#8 (after (.cmdWriteDiscarded 0x11#8) (openAt 3#8 State.reset))).readRegister 0x0C#6 = 1#8 := by
  decide

/-- R176: a command may still execute across one frame of the clock, and not across two. -/
theorem test_cmdWriteDiscarded_across_one_frame_and_not_two :
    (afterAll [.frame, .cmdWriteDiscarded 0x11#8] (openAt 3#8 State.reset)).mailbox.overrun = true
      ∧ (afterAll [.frame, .frame, .cmdWriteDiscarded 0x11#8] (openAt 3#8 State.reset)).mailbox.overrun = false := by
  decide

theorem test_badCommand_keeps_its_code :
    (after (.badCommand 0x77#8) State.reset).readRegister 0x0A#6 = 0x77#8
      ∧ (after (.badCommand 0x77#8) State.reset).readRegister 0x0B#6 = 0x02#8 := by
  decide

/-- A write frame with auto-increment writes P7 and then CMD: code 14h, with handle 00h in P0. -/
theorem test_frame_writes_the_parameters_and_latches :
    (afterAll [.hcsFall, .addressByte 0x49#8, .registerWrite 9#6 5#8, .annStatus, .hcsRise] State.reset).mailbox.result
      = .badHandle
      ∧ (afterAll [.hcsFall, .addressByte 0x49#8, .registerWrite 9#6 5#8, .annStatus, .hcsRise] State.reset).mailbox.p[7]
        = 5#8 := by
  decide

theorem test_read_frame_drives_the_register :
    (afterAll [.hcsFall, .addressByte 0x80#8] State.reset).host.hsdo = some 0xA4#8 := by decide

theorem test_hcsRise_ends_the_frame :
    (afterAll [.hcsFall, .hcsRise, .addressByte 0x80#8] State.reset).host
      = { hcsLow := false, frame := none, hsdo := none } := by
  decide

theorem test_resetnHeldLow_then_pinReset :
    (afterAll [.resetnHeldLow, .annOpen, .pinReset] State.reset).readRegister 0x27#6 = 2#8 := by decide

theorem test_powerOnReset_reports_por : (after .powerOnReset playing).readRegister 0x27#6 = 1#8 := by decide

theorem test_softReset_frees_and_fades :
    (after .softReset playing).slots[0].generation = 1#4
      ∧ (after .softReset playing).stages[0].fade = some ⟨0, 0, .softReset⟩
      ∧ (after .softReset playing).readRegister 0x27#6 = 3#8 := by
  decide

theorem test_tick_follows_48_frames :
    (after .frame { State.reset with clock := ⟨47, 0, 0, 0⟩ }).clock = ⟨0, 1, 1, 0⟩
      ∧ (afterAll [.frame, .tick] { State.reset with clock := ⟨47, 0, 0, 0⟩ }).clock = ⟨0, 1, 0, 0⟩ := by
  decide

theorem test_volumeSlewStep_moves_one_step :
    (after .volumeSlewStep { State.reset with
      clock := ⟨0, 0, 0, 1⟩
      stages := State.reset.stages.set 0 { Stage.reset with volumeTarget := 90 } }).stages[0].volumeCurrent = 95 := by
  decide

/-! ### Witnesses: states and operands that meet the hypotheses of the statements -/

/-- The part with every slot taken. -/
def fullTable : State := { State.reset with slots := Vector.replicate 16 (announcement .building []) }

/-- A list of 32 MARK segments. -/
def longList : List Segment := List.replicate 32 (.mark 0#8)

theorem witness_AnnOpenTakesLowestFreeSlot :
    let s := withParams (having (announcement .building [])) #v[7#8, 15#8, 2#8, 15#8, 255#8, 255#8, 9#8, 0#8]
    s.takesCommand ∧ s.mailbox.p[0].toNat ≤ 7 ∧ 1 ≤ s.mailbox.p[1].toNat ∧ s.mailbox.p[1].toNat ≤ 15
      ∧ (s.mailbox.p[2].toNat, Policy.resume) ∈ [(0, Policy.discard), (1, Policy.restart), (2, Policy.resume)]
      ∧ s.mailbox.p[3].toNat ≤ 15 ∧ s.slots[(1 : SlotId)].state = .free
      ∧ ∀ j : SlotId, j < 1 → s.slots[j].state ≠ .free := by
  decide

theorem witness_OpenAndAppendRefused_open :
    ∃ s t : State, (s.takesCommand ∧ 15 < s.mailbox.p[3].toNat)
      ∧ t.takesCommand ∧ t.mailbox.p[0].toNat ≤ 7 ∧ t.mailbox.p[1] ≠ 0#8 ∧ t.mailbox.p[1].toNat ≤ 15
      ∧ t.mailbox.p[2].toNat ≤ 2 ∧ t.mailbox.p[3].toNat ≤ 15 ∧ ∀ i : SlotId, t.slots[i].state ≠ .free :=
  ⟨withParams State.reset #v[7#8, 1#8, 2#8, 16#8, 0#8, 0#8, 0#8, 0#8],
    withParams fullTable #v[7#8, 1#8, 2#8, 15#8, 0#8, 0#8, 0#8, 0#8], by decide⟩

theorem witness_OpenAndAppendRefused_append :
    (having (announcement .queued someSegments)).names 0#8 0
      ∧ (let s := having (announcement .building someSegments)
         s.takesCommand ∧ s.names s.mailbox.p[0] 0 ∧ ∀ g, ¬ spellsSegment s.mailbox.p g)
      ∧ (let s := withParams (having (announcement .building longList)) #v[0#8, 3#8, 1#8, 0#8, 0#8, 0#8, 0#8, 0#8]
         s.takesCommand ∧ s.names s.mailbox.p[0] 0 ∧ spellsSegment s.mailbox.p (.mark 1#8)
          ∧ 32 ≤ s.slots[(0 : SlotId)].segments.length)
      ∧ (let s := withParams { having (announcement .building []) with poolFree := 0 }
          #v[0#8, 3#8, 1#8, 0#8, 0#8, 0#8, 0#8, 0#8]
         s.takesCommand ∧ spellsSegment s.mailbox.p (.mark 1#8) ∧ s.slots[(0 : SlotId)].segments.length < 32
          ∧ s.poolFree = 0) := by
  refine ⟨by decide, ⟨by decide, by decide, ?_⟩, ⟨by decide, by decide, ⟨by decide, by decide⟩, by decide⟩,
    ⟨by decide, ⟨by decide, by decide⟩, by decide, by decide⟩⟩
  intro g h
  cases g <;> exact absurd h.1 (by decide)

theorem witness_HandleChecks :
    (let s := withParams State.reset #v[0x25#8, 0#8, 0#8, 0#8, 0#8, 0#8, 0#8, 0#8]
     s.takesCommand ∧ s.mailbox.p[0].toNat % 16 = (5 : SlotId).val ∧ s.slots[(5 : SlotId)].state = .free)
      ∧ (let s := withParams granted #v[0x10#8, 0#8, 0#8, 0#8, 0#8, 0#8, 0#8, 0#8]
         s.takesCommand ∧ s.mailbox.p[0].toNat % 16 = (0 : SlotId).val ∧ s.slots[(0 : SlotId)].state ≠ .free
          ∧ s.slots[(0 : SlotId)].generation.toNat ≠ s.mailbox.p[0].toNat / 16) := by
  decide

theorem witness_AnnAppendAddsSegment :
    let s := withParams { having (announcement .building []) with poolFree := 1 }
      #v[0#8, 1#8, 0xFF#8, 0x01#8, 0xFF#8, 0#8, 0#8, 0#8]
    s.takesCommand ∧ s.names s.mailbox.p[0] 0 ∧ s.slots[(0 : SlotId)].state = .building
      ∧ spellsSegment s.mailbox.p (.clip 511 none false) ∧ s.slots[(0 : SlotId)].segments.length < 32
      ∧ 0 < s.poolFree :=
  ⟨by decide, by decide, by decide, ⟨by decide, by decide, by decide, rfl, .inr ⟨by decide, rfl⟩⟩, by decide, by decide⟩

theorem witness_AnnSubmitQueues :
    let s := having (announcement .building someSegments)
    s.takesCommand ∧ s.names s.mailbox.p[0] 0 ∧ s.slots[(0 : SlotId)].state = .building
      ∧ s.port.claim.exclusive = false ∧ s.dir.state = .valid
      ∧ (∃ g ∈ s.slots[(0 : SlotId)].segments, ∀ v, g ≠ .mark v)
      ∧ ∀ n trim fault, Segment.clip n trim fault ∈ s.slots[(0 : SlotId)].segments → s.dir.accepts n := by
  refine ⟨by decide, by decide, by decide, by decide, by decide, ⟨.gap 1, by decide, nofun⟩, ?_⟩
  intro n trim fault mem
  have : n = 0 := by
    have : (Segment.clip n trim fault) ∈ [Segment.clip 0 none false, .gap 1, .mark 5#8] := mem
    simp at this
    exact this.1
  exact this ▸ ⟨_, rfl, rfl⟩

theorem witness_AnnSubmitRefused :
    (having (announcement .queued someSegments)).names 0#8 0
      ∧ (let s := having (announcement .building someSegments)
         (s.takesCommand ∧ s.names s.mailbox.p[0] 0)
          ∧ { s with dir := { s.dir with state := .loading } }.dir.state = .loading
          ∧ { s with dir := { s.dir with state := .stale } }.dir.state = .stale)
      ∧ (∀ g ∈ (having (announcement .building [.mark 1#8])).slots[(0 : SlotId)].segments, ∃ v, g = .mark v)
      ∧ (having (announcement .building [.gap 5, .clip 2 none false])).slots[(0 : SlotId)].segments
          = [.gap 5] ++ .clip 2 none false :: []
      ∧ ¬ (having (announcement .building [.gap 5, .clip 2 none false])).dir.accepts 2 := by
  refine ⟨by decide, by decide, ?_, by decide, ?_⟩
  · intro g mem
    have : g ∈ [Segment.mark 1#8] := mem
    exact ⟨1#8, by simpa using this⟩
  · rintro ⟨entry, mem, -⟩
    cases mem

theorem witness_AnnCancelFreesWaiting :
    (let s := having (announcement .queued someSegments)
     s.takesCommand ∧ s.names s.mailbox.p[0] 0 ∧ s.slots[(0 : SlotId)].state = .queued)
      ∧ (let s := having (announcement .building someSegments)
         s.takesCommand ∧ s.names s.mailbox.p[0] 0 ∧ s.slots[(0 : SlotId)].state = .building
          ∧ (0 : SlotId) ∉ s.order) := by
  decide

theorem witness_CancelAndExpiryWithdrawClaims :
    granted.takesCommand ∧ granted.names granted.mailbox.p[0] 0 ∧ granted.slots[(0 : SlotId)].state = .granted
      ∧ granted.resetnLow = false ∧ granted.slots[(0 : SlotId)].deadline = some 0 := by
  decide

theorem witness_AnnCancelOfPlayingOrStopping :
    playing.takesCommand ∧ playing.names playing.mailbox.p[0] 0 ∧ playing.slots[(0 : SlotId)].state = .playing
      ∧ playing.slots[(0 : SlotId)].engine = some 0
      ∧ (stopping 3).slots[(0 : SlotId)].state = .stopping
      ∧ (stopping 3).slots[(0 : SlotId)].stop = some ⟨.preempted, false, some 0x15#8⟩
      ∧ (stopping 3).takesCommand ∧ (stopping 3).names (stopping 3).mailbox.p[0] 0 := by
  decide

theorem witness_AnnStatusReports :
    playing.takesCommand ∧ playing.names playing.mailbox.p[0] 0
      ∧ (playing.slots[(0 : SlotId)].state, 4#8) ∈ [(AnnState.building, 1#8), (AnnState.queued, 2#8),
        (AnnState.granted, 3#8), (AnnState.playing, 4#8), (AnnState.stopping, 5#8)] := by
  decide

/-- ZONE_SET of Z3: enable, volume and idle hold. -/
def zoneSetOf (enable volume hold : Byte) (s : State) : State :=
  withParams s #v[3#8, enable, volume, hold, 0#8, 0#8, 0#8, 0#8]

theorem witness_ZoneSetKeepsEnable :
    (let s := zoneSetOf 1#8 128#8 0#8 (withStage 3 readyStage)
     s.takesCommand ∧ s.mailbox.p[0].toNat = (3 : Zone).val
      ∧ s.mailbox.p[1] = (if s.stages[(3 : Zone)].enabled then 1#8 else 0#8) ∧ s.mailbox.p[2].toNat ≤ 128)
      ∧ (zoneSetOf 1#8 129#8 0#8 State.reset).takesCommand
      ∧ 128 < (zoneSetOf 1#8 129#8 0#8 State.reset).mailbox.p[2].toNat := by
  decide

/-- Slot 0 PLAYING on Z0 and Z1, and slot 1 GRANTED, claiming Z0 and Z2; Z2 stands READY. -/
def contested (state : AnnState) (zones : ZoneSet) (stop : Option Stopping) : State :=
  let s := bound { announcement state someSegments with stop := stop } (engineAt .running 0 .begun)
  { s with
    slots := #v[{ s.slots[0] with effZones := zones, zoneMask := 3#4 },
      { announcement .granted someSegments with zoneMask := 5#4, effZones := 5#4 }]
        ++ Vector.replicate 14 (Slot.free 0#4)
    order := [0, 1], poolFree := 250
    zones := #v[{ owner := some 0#8, claimant := some 1#8 },
      { owner := if zones = 3#4 then some 0#8 else none, claimant := none },
      { owner := none, claimant := some 1#8 }, { owner := none, claimant := none }]
    stages := #v[readyStage, readyStage, readyStage, Stage.reset] }

theorem witness_ZoneSetChangesEnable :
    (let s := zoneSetOf 1#8 128#8 255#8 (withStage 3 { readyStage with enabled := false })
     s.takesCommand ∧ s.mailbox.p[0].toNat = (3 : Zone).val ∧ s.mailbox.p[2].toNat ≤ 128
      ∧ s.stages[(3 : Zone)].enabled = false ∧ s.mailbox.p[1] = 1#8)
      ∧ (let s := zoneSetOf 0#8 128#8 255#8 (withStage 3 readyStage)
         s.takesCommand ∧ s.stages[(3 : Zone)].enabled = true ∧ s.mailbox.p[1] = 0#8
          ∧ s.zones[(3 : Zone)].owner = none ∧ s.zones[(3 : Zone)].claimant = none)
      ∧ (let s := contested .playing 3#4 none
         s.takesCommand ∧ s.mailbox.p[0].toNat = (0 : Zone).val ∧ s.mailbox.p[1] = 0#8
          ∧ s.stages[(0 : Zone)].enabled = true ∧ s.claimantGranted 0 ∧ s.zones[(0 : Zone)].claimant = some 1#8
          ∧ ∀ h ∈ s.zones[(0 : Zone)].owner, s.handleAt (handleSlot h) = h
            ∧ (s.slots[handleSlot h].state = .playing ∨ s.slots[handleSlot h].state = .stopping)
            ∧ s.slots[handleSlot h].effZones &&& ~~~ zoneBit 0 ≠ 0#4) := by
  decide

theorem witness_ZoneSetTakesLastZone :
    let s := contested .stopping 1#4 (some ⟨.preempted, false, some 1#8⟩)
    (s.takesCommand ∧ s.mailbox.p[0].toNat = (0 : Zone).val ∧ s.mailbox.p[1] = 0#8
      ∧ s.mailbox.p[2].toNat ≤ 128 ∧ s.stages[(0 : Zone)].enabled = true
      ∧ s.zones[(0 : Zone)].owner = some (s.handleAt 0) ∧ s.claimantGranted 0)
      ∧ (∀ w : Zone, w ≠ 0 → s.zones[w].owner ≠ some (s.handleAt 0))
      ∧ s.slots[(0 : SlotId)].effZones = zoneBit 0 ∧ s.slots[(0 : SlotId)].engine = some 0
      ∧ s.slots[(0 : SlotId)].state = .stopping ∧ s.slots[(0 : SlotId)].stop.isSome = true
      ∧ s.slots[(0 : SlotId)].policy = .resume
      ∧ playing.slots[(0 : SlotId)].state = .playing ∧ playing.claimantGranted 0
      ∧ playing.zones[(0 : Zone)].owner = some (playing.handleAt 0)
      ∧ playing.slots[(0 : SlotId)].effZones = zoneBit 0 := by
  decide

theorem witness_DirLoadBegins :
    (granted.takesCommand ∧ ∃ i : SlotId, granted.slots[i].state.scheduled = true)
      ∧ (let s := withParams State.reset #v[0#8, 0xFF#8, 0xFF#8, 0#8, 0#8, 0#8, 0#8, 0#8]
         s.takesCommand ∧ (∀ i : SlotId, s.slots[i].state.scheduled = false) ∧ s.dir.state ≠ .loading
          ∧ s.port.claim.exclusive = false ∧ s.mailbox.p[0] = 0#8
          ∧ (0xFFFF00#24).toNat = 256 * s.mailbox.p[1].toNat + 65536 * s.mailbox.p[2].toNat)
      ∧ (withParams State.reset #v[1#8, 0#8, 0#8, 0#8, 0#8, 0#8, 0#8, 0#8]).mailbox.p[0] ≠ 0#8 := by
  decide

theorem witness_FlashConfigStoresSettings :
    (let s := withParams State.reset #v[1#8, 0x0B#8, 1#8, 15#8, 0#8, 0#8, 0#8, 0#8]
     s.takesCommand ∧ (s.mailbox.p[0].toNat, FlashClock.full) ∈ [(0, FlashClock.half), (1, FlashClock.full)]
      ∧ s.mailbox.p[2].toNat ≤ 1 ∧ 1 ≤ s.mailbox.p[3].toNat ∧ s.mailbox.p[3].toNat ≤ 15)
      ∧ 15 < (withParams State.reset #v[1#8, 0x0B#8, 1#8, 16#8, 0#8, 0#8, 0#8, 0#8]).mailbox.p[3].toNat := by
  decide

theorem witness_FlashClaimWaits :
    1 < (withParams State.reset #v[2#8, 0#8, 0#8, 0#8, 0#8, 0#8, 0#8, 0#8]).mailbox.p[0].toNat
      ∧ (State.reset.takesCommand ∧ State.reset.port.claim = .none
          ∧ (State.reset.mailbox.p[0].toNat, ClaimMode.shared) ∈ [(0, ClaimMode.shared), (1, ClaimMode.exclusive)])
      ∧ (held .shared none none none).port.claim ≠ .none
      ∧ (let s := withParams granted #v[1#8, 0#8, 0#8, 0#8, 0#8, 0#8, 0#8, 0#8]
         s.takesCommand ∧ s.port.claim = .none
          ∧ (s.mailbox.p[0].toNat, ClaimMode.exclusive) ∈ [(0, ClaimMode.shared), (1, ClaimMode.exclusive)]
          ∧ ∃ i : SlotId, s.slots[i].state.scheduled = true) := by
  decide

theorem witness_FlashReleaseEndsClaim :
    (State.reset.takesCommand ∧ State.reset.port.claim = .none)
      ∧ (chapter7.takesCommand ∧ chapter7.port.claim = .waiting .shared)
      ∧ (let s := held .exclusive none none none
         s.takesCommand ∧ s.port.claim = .held .exclusive none none ∧ s.port.ptByte = none)
      ∧ (let s := held .shared (some 0) (some .revoke) (some ⟨1#8, .half⟩)
         s.takesCommand ∧ s.port.claim = .held .shared (some 0) (some .revoke) ∧ s.port.ptByte ≠ none) := by
  decide

theorem witness_SoftResetQuietsThePart : playing.takesCommand ∧ playing.PoolLaw ∧ playing.OrderLaw := by
  unfold State.PoolLaw State.OrderLaw
  decide

theorem witness_ResetsSetEveryRecord :
    (Instr.powerOnReset, 1#8, playing.resetnLow)
      ∈ [(Instr.powerOnReset, 1#8, playing.resetnLow), (Instr.pinReset, 2#8, false)] := by
  decide

theorem witness_MailboxAnswersAlone :
    (State.reset.takesCommand ∧ 0x5B#8 ∉ [0x10#8, 0x11#8, 0x12#8, 0x13#8, 0x14#8, 0x20#8, 0x30#8, 0x40#8, 0x41#8,
        0x42#8, 0x5A#8])
      ∧ (let s := after .flashRelease (held .shared (some 4) none (some ⟨1#8, .half⟩))
         s.takesWrite 0x0A#6 ∧ s.mailbox.executing = true)
      ∧ (let s := openAt 3#8 State.reset
         s.takesWrite 0x0A#6 ∧ s.mailbox.executing = false ∧ s.mailbox.foldedEnd ≠ 0) := by
  decide

/-- The part with an open host frame whose address byte is complete. -/
def framed (read autoInc : Bool) (a : RegAddr) : State :=
  { State.reset with host := { hcsLow := true, frame := some ⟨8, some ⟨read, autoInc, a⟩⟩, hsdo := some 0#8 } }

theorem witness_RegisterWriteReachesItsRegister :
    ((framed false true 9#6).takesWrite 9#6 ∧ (9#6).toNat = (7 : Fin 8).val + 2)
      ∧ ((framed false true 0x3F#6).takesWrite 0x3F#6
          ∧ (0x3F#6).toNat ∉ [2, 3, 4, 5, 6, 7, 8, 9, 0x0A, 0x20, 0x21, 0x22, 0x2A, 0x30, 0x31])
      ∧ ((framed true true 0x3F#6).resetnLow = false
          ∧ (framed true true 0x3F#6).host.frame = some ⟨8, some ⟨true, true, 0x3F#6⟩⟩)
      ∧ ∀ fa ∈ (some ⟨false, true, 9#6⟩ : Option FrameAddress), fa.addr ≠ 8#6 := by
  decide

theorem witness_QueueRegisterWrites :
    State.reset.takesWrite 0x2A#6 ∧ State.reset.takesWrite 0x21#6 ∧ State.reset.takesWrite 0x22#6
      ∧ State.reset.takesWrite 0x20#6 ∧ (0x1F#5).toNat = (0xFF#8).toNat % 32 ∧ (0x7#3).toNat = (0xFF#8).toNat % 8 := by
  decide

theorem witness_QueueTakesOffers :
    chapter8.enabled .claim = false ∧ chapter8.enabled .mark = true
      ∧ (chapter8.offer (started 1#8)).records.length = 31
      ∧ (∀ x ∈ (chapter8.offer (started 1#8)).records, x.kind ≠ .overflow)
      ∧ ((chapter8.offer (started 1#8)).offer (started 1#8)).records
        = List.replicate 30 (started 0#8) ++ [started 1#8] ++ [EventRecord.overflow] := by
  decide

theorem witness_PassThroughWrites :
    (State.reset.takesWrite 0x30#6 ∧ State.reset.takesWrite 0x31#6 ∧ State.reset.port.claim.isHeld = false)
      ∧ (let s := held .shared (some 4) none none
         s.takesWrite 0x30#6 ∧ s.takesWrite 0x31#6 ∧ s.port.claim.isHeld = true ∧ s.port.fcs = true
          ∧ s.port.ptByte = none)
      ∧ (let s := held .shared (some 4) none (some ⟨1#8, .full⟩)
         s.takesWrite 0x30#6 ∧ s.takesWrite 0x31#6 ∧ s.port.claim.isHeld = true ∧ s.port.fcs = true
          ∧ s.port.ptByte ≠ none) := by
  decide

theorem witness_PassThroughByteAndHoldEnd :
    (let s := held .shared (some 0) (some .revoke) (some ⟨1#8, .full⟩)
     s.resetnLow = false ∧ s.port.ptByte ≠ none ∧ s.port.claim = .held .shared (some 0) (some .revoke))
      ∧ (let s := held .shared (some 0) none none
         s.resetnLow = false ∧ s.port.claim = .held .shared (some 0) none ∧ s.port.ptByte = none)
      ∧ (held .shared (some 0) none (some ⟨1#8, .full⟩)).port.ptByte ≠ none := by
  decide

theorem playing_keeps_the_binding_law : playing.BindingLaw := by unfold State.BindingLaw; decide

theorem witness_FrameDrivesZones :
    playing.resetnLow = false ∧ playing.BindingLaw
      ∧ playing.zones[(0 : Zone)].owner = some 0#8 ∧ playing.engines[(0 : EngineId)].binding = some 0#8
      ∧ (withStage 1 { readyStage with fade := some ⟨255, -32768, .disable⟩ }).zones[(1 : Zone)].owner = none :=
  ⟨by decide, playing_keeps_the_binding_law, by decide⟩

/-- One announcement PLAYING a PCM8 clip whose next byte is FFh. -/
def playingByte : State :=
  bound (announcement .playing someSegments)
    { engineAt .running 0 .begun with ring := [0xFF#8], clipPos := 199, dec := { Decoder.cleared with phase := 3 } }

theorem witness_FramePlaysClip :
    let s := playingByte
    s.resetnLow = false ∧ s.BindingLaw ∧ s.engines[(0 : EngineId)].binding = some 0#8 ∧ (0 : SlotId) = handleSlot 0#8
      ∧ s.engines[(0 : EngineId)].state = .running ∧ s.engines[(0 : EngineId)].play.stage = .segment
      ∧ s.engines[(0 : EngineId)].progress = .begun
      ∧ s.slots[(0 : SlotId)].segments[s.engines[(0 : EngineId)].play.seg]? = some (.clip 0 none false)
      ∧ s.dir.entries[0]? = some
        { start := 0x000100#24, length := 200, coding := 1#8, rate := 2#8, trim := 16#8, valid := true }
      ∧ coversFrames 2#8 3 ∧ s.engines[(0 : EngineId)].inClip.clipPos < 200
      ∧ s.engines[(0 : EngineId)].dec.phase = 3 := by
  refine ⟨by decide, ?_, by decide⟩
  unfold State.BindingLaw
  decide

/-- The forms of a decoded sample: PCM8, PCM16, the first code of an SD4 block, a code in a low and one in a high half. -/
theorem witness_FramePlaysClip_samples :
    let d := Decoder.cleared
    let start := { ({ d with predictor := 1000, stepIndex := 20 } : Decoder).decodeCode 0x3#4 with
      blockLen := 104, blockPos := 4, nibble := .high }
    let second := { start.decodeCode 0xB#4 with nibble := .low, blockPos := 5 }
    let third := { second.decodeCode 0xF#4 with nibble := .high }
    takesSample 1#8 d 1 [0xFF#8] [] 32512 d ∧ takesSample 2#8 d 2 [0x00#8, 0x80#8] [] (-32768) d
      ∧ takesSample 3#8 chapter4.engines[(0 : EngineId)].inClip.dec 104 chapter4.engines[(0 : EngineId)].ring
        [0xB3#8, 0x7F#8] start.predictor start
      ∧ takesSample 3#8 start 100 [0xB3#8, 0x7F#8] [0x7F#8] second.predictor second
      ∧ takesSample 3#8 second 99 [0x7F#8] [0x7F#8] third.predictor third := by
  refine ⟨.inl ⟨rfl, rfl, _, rfl, by decide⟩, .inr (.inl ⟨rfl, rfl, _, _, rfl, by decide⟩), ?_, ?_, ?_⟩
  · exact .inr (.inr ⟨rfl, rfl, .inl ⟨by decide, _, _, _, _, _, 1000, rfl, rfl, by decide, by decide, by decide⟩⟩)
  · exact .inr (.inr ⟨rfl, rfl, .inr (.inr ⟨by decide, by decide, _, rfl, by decide⟩)⟩)
  · exact .inr (.inr ⟨rfl, rfl, .inr (.inl ⟨by decide, by decide, _, _, rfl, rfl, by decide⟩)⟩)

/-- The 256th frame of a fade, the end of PRIMING, and a frame within a decoded sample. -/
theorem witness_FramePlaysClip_states :
    (stopping 255).engines[(0 : EngineId)].state = .fading ∧ (stopping 255).engines[(0 : EngineId)].fadePos < 256
      ∧ (stopping 255).engines[(0 : EngineId)].fadePriming = false
      ∧ Engine.filled { engineAt .priming 0 .fresh with ring := List.replicate 256 0#8 }
      ∧ chapter4.engines[(0 : EngineId)].progress = .fresh ∧ chapter4.engines[(0 : EngineId)].dec.phase = 0
      ∧ (after .frame chapter4).engines[(0 : EngineId)].progress = .begun
      ∧ (after .frame chapter4).engines[(0 : EngineId)].state = .running
      ∧ (after .frame chapter4).engines[(0 : EngineId)].dec.phase = 1 ∧ 1 < 3 := by
  refine ⟨by decide, by decide, by decide, .inl (List.length_replicate ▸ le_refl 256), by decide⟩

/-- One announcement PLAYING an SD4 clip: the last frame of a decoded sample, the last of its block, was given, and
four bytes of the next block are there. -/
def blockEnd : State :=
  bound (announcement .playing [.gap 1, .clip 1 none false])
    { engineAt .running 1 .begun with
      ring := [0#8, 0#8, 0#8, 0#8], clipPos := 99
      dec := { Decoder.cleared with phase := 3, blockPos := 128, blockLen := 128 } }

/-- The same list at the end of its GAP, with nothing in the ring. -/
def beforeClip : State :=
  bound (announcement .playing [.gap 1, .clip 1 none false])
    { engineAt .running 0 .done with fetch := { pass := 1, seg := 1, offset := 0, phase := .header, lap := .same } }

theorem witness_FrameStallsWithoutBytes :
    (blockEnd.BindingLaw ∧ beforeClip.BindingLaw)
      ∧ (blockEnd.resetnLow = false ∧ blockEnd.engines[(0 : EngineId)].binding = some 0#8
        ∧ blockEnd.engines[(0 : EngineId)].state = .running ∧ blockEnd.engines[(0 : EngineId)].play.stage = .segment
        ∧ blockEnd.engines[(0 : EngineId)].progress = .begun ∧ blockEnd.engines[(0 : EngineId)].dec.phase = 3
        ∧ blockEnd.slots[(0 : SlotId)].segments[blockEnd.engines[(0 : EngineId)].play.seg]? = some (.clip 1 none false)
        ∧ (blockEnd.dir.entries[1]?.map fun x => (x.rate.toNat, x.coding, x.length)) = some (2, 3#8, 104)
        ∧ blockEnd.engines[(0 : EngineId)].clipPos < 104
        ∧ lacksSample 3#8 (128 == 128) blockEnd.engines[(0 : EngineId)].ring)
      ∧ beforeClip.engines[(0 : EngineId)].progress = .done ∧ beforeClip.engines[(0 : EngineId)].dec.phase = 0
      ∧ beforeClip.slots[(0 : SlotId)].segments[0]? = some (.gap 1)
      ∧ beforeClip.slots[(0 : SlotId)].segments[1]? = some (.clip 1 none false)
      ∧ beforeClip.engines[(0 : EngineId)].fetch.phase ≠ .waiting
      ∧ lacksSample 3#8 true beforeClip.engines[(0 : EngineId)].ring
      ∧ lacksSample 1#8 false [] ∧ lacksSample 2#8 false [0#8] := by
  refine ⟨⟨?_, ?_⟩, by decide, by decide⟩ <;> · unfold State.BindingLaw; decide

/-- One announcement PLAYING its GAP. -/
def inGap (progress : Progress) (remaining : Nat) : State :=
  bound (announcement .playing [.gap 4095, .mark 5#8, .gap 2])
    { engineAt .running 0 progress with
      framesRemaining := remaining, fetch := { pass := 1, seg := 3, offset := 0, phase := .done, lap := .same } }

theorem inGap_keeps_the_binding_law (progress : Progress) (remaining : Nat) : (inGap progress remaining).BindingLaw := by
  have h : (inGap .fresh 0).BindingLaw := by unfold State.BindingLaw; decide
  refine ⟨fun e => ?_, fun i => h.2 i |>.imp id fun k e he => ?_⟩
  · fin_cases e
    · exact h.1 0
    · exact h.1 1
    · exact h.1 2
    · exact h.1 3
  · fin_cases e
    · exact k 0 he
    · exact k 1 he
    · exact k 2 he
    · exact k 3 he

/-- One announcement whose engine is PRIMING at its GAP. -/
def primingGap : State := bound (announcement .playing [.gap 4095]) (engineAt .priming 0 .fresh)

theorem witness_GapsCountTheirFrames :
    ((inGap .begun 1).BindingLaw ∧ primingGap.BindingLaw ∧ (inGap .begun 0).BindingLaw)
      ∧ ((inGap .begun 1).slots[(0 : SlotId)].segments[(inGap .begun 1).engines[(0 : EngineId)].play.seg]?
          = some (.gap 4095)
        ∧ (inGap .begun 1).engines[(0 : EngineId)].play.stage = .segment
        ∧ (inGap .begun 1).engines[(0 : EngineId)].state = .running
        ∧ 0 < (inGap .begun 1).engines[(0 : EngineId)].framesRemaining)
      ∧ (primingGap.resetnLow = false ∧ primingGap.engines[(0 : EngineId)].binding = some 0#8
        ∧ primingGap.engines[(0 : EngineId)].state = .priming ∧ primingGap.engines[(0 : EngineId)].progress = .fresh
        ∧ primingGap.slots[(0 : SlotId)].segments[0]? = some (.gap 4095))
      ∧ (inGap .begun 0).engines[(0 : EngineId)].framesRemaining = 0
      ∧ (bound (announcement .playing someSegments)
          { engineAt .running 0 .begun with play := { pass := 2, seg := 0, stage := .repeatGap } }).engines[
            (0 : EngineId)].play.stage = .repeatGap :=
  ⟨⟨inGap_keeps_the_binding_law _ _, by unfold State.BindingLaw; decide, inGap_keeps_the_binding_law _ _⟩, by decide⟩

theorem witness_FrameCrossesBoundaries_mark :
    let s := inGap .done 0
    s.resetnLow = false ∧ s.BindingLaw ∧ s.engines[(0 : EngineId)].binding = some 0#8
      ∧ (∀ e' : EngineId, e' ≠ 0 → s.engines[e'].binding = none)
      ∧ s.slots[(0 : SlotId)].state = .playing ∧ s.engines[(0 : EngineId)].state = .running
      ∧ s.engines[(0 : EngineId)].play.stage = .segment ∧ s.engines[(0 : EngineId)].progress = .done
      ∧ s.engines[(0 : EngineId)].fetch.phase = .done
      ∧ s.slots[(0 : SlotId)].segments[0]? = some (.gap 4095) ∧ s.slots[(0 : SlotId)].segments[1]? = some (.mark 5#8)
      ∧ s.slots[(0 : SlotId)].segments[2]? = some (.gap 2) :=
  ⟨by decide, inGap_keeps_the_binding_law _ _, by decide⟩

/-- One announcement PLAYING its only CLIP, whose last sample has given all its frames, with 80h next in the ring. -/
def clipOver (repeatCount repeatGap : Nat) : State :=
  bound { announcement .playing [.clip 0 none false] with repeatCount := repeatCount, repeatGap := repeatGap }
    { engineAt .running 0 .begun with
      ring := [0x80#8], clipPos := 200, dec := { Decoder.cleared with current := 300, phase := 3 } }

/-- What stands of the decoder once the CLIP is left: the last sample is the previous one. -/
def leftDecoder : Decoder := { Decoder.cleared with current := 300, previous := 300 }

theorem clipOver_leaves (repeatCount repeatGap : Nat) :
    (clipOver repeatCount repeatGap).engines[(0 : EngineId)].leavesSegment (clipOver repeatCount repeatGap).dir
      (clipOver repeatCount repeatGap).slots[(0 : SlotId)].segments leftDecoder :=
  ⟨rfl, .inr ⟨0, none, _, rfl, rfl, (by decide : coversFrames 2#8 3), rfl, rfl, rfl⟩⟩

theorem witness_FrameCrossesBoundaries_pass :
    (clipOver 1 0).BindingLaw ∧ (clipOver 1 0).resetnLow = false
      ∧ (clipOver 1 0).engines[(0 : EngineId)].binding = some 0#8
      ∧ (clipOver 1 0).engines[(0 : EngineId)].state = .running
      ∧ (clipOver 1 0).engines[(0 : EngineId)].play.seg + 1 = (clipOver 1 0).slots[(0 : SlotId)].segments.length
      ∧ (clipOver 1 0).slots[(0 : SlotId)].repeatCount ≤ (clipOver 1 0).engines[(0 : EngineId)].play.pass
      ∧ (clipOver 2 7).engines[(0 : EngineId)].play.pass < (clipOver 2 7).slots[(0 : SlotId)].repeatCount
      ∧ (clipOver 2 7).slots[(0 : SlotId)].repeatGap ≠ 0
      ∧ (clipOver 2 0).slots[(0 : SlotId)].repeatGap = 0
      ∧ (clipOver 2 0).engines[(0 : EngineId)].fetch.phase ≠ .waiting ∧ leftDecoder.phase = 0
      ∧ (clipOver 2 0).engines[(0 : EngineId)].ring = [0x80#8] := by
  refine ⟨?_, by decide⟩
  unfold State.BindingLaw
  decide

theorem witness_FrameCrossesBoundaries_next :
    (beforeClip.engines[(0 : EngineId)].leavesSegment beforeClip.dir beforeClip.slots[(0 : SlotId)].segments Decoder.cleared)
      ∧ beforeClip.engines[(0 : EngineId)].play.seg + 1 < beforeClip.slots[(0 : SlotId)].segments.length
      ∧ (let g := { engineAt .running 0 .done with play := { pass := 2, seg := 0, stage := .repeatGap } }
         g.play.stage = .repeatGap ∧ g.gapPassed) := by
  refine ⟨⟨rfl, .inl ⟨1, rfl, .inl rfl, rfl⟩⟩, by decide⟩

/-- One announcement at a faulted CLIP with a GAP behind it. -/
def atFault (state : AnnState) (engine : EngineState) (count : Nat) (why : Option Stopping) : State :=
  bound { announcement state [.clip 0 none true, .gap 1] with faultCount := count, stop := why }
    (engineAt engine 0 .fresh)

theorem witness_FaultsSkipThenAbort :
    ((atFault .playing .stalled 0 none).BindingLaw ∧ (atFault .playing .stalled 1 none).BindingLaw
        ∧ (atFault .stopping .fading 1 (some ⟨.preempted, true, some 9#8⟩)).BindingLaw)
      ∧ (let s := atFault .playing .stalled 0 none
         s.resetnLow = false ∧ s.engines[(0 : EngineId)].binding = some 0#8
          ∧ (∀ e' : EngineId, e' ≠ 0 → s.engines[e'].binding = none)
          ∧ s.engines[(0 : EngineId)].state = .stalled ∧ s.engines[(0 : EngineId)].play.stage = .segment
          ∧ s.slots[(0 : SlotId)].segments[0]? = some (.clip 0 none true)
          ∧ s.slots[(0 : SlotId)].segments[1]? = some (.gap 1) ∧ s.slots[(0 : SlotId)].faultCount = 0)
      ∧ (atFault .playing .stalled 1 none).slots[(0 : SlotId)].faultCount = 1
      ∧ (let s := atFault .stopping .fading 1 (some ⟨.preempted, true, some 9#8⟩)
         s.slots[(0 : SlotId)].state = .stopping ∧ s.slots[(0 : SlotId)].stop = some ⟨.preempted, true, some 9#8⟩
          ∧ s.engines[(0 : EngineId)].fadePriming = false ∧ s.engines[(0 : EngineId)].fadePos < 256) := by
  refine ⟨⟨?_, ?_, ?_⟩, by decide⟩ <;> · unfold State.BindingLaw; decide

/-- An SD4 clip whose block header, with a step index of 80, is the next to be taken. -/
def badBlock : State :=
  bound (announcement .playing [.clip 1 none false, .gap 1])
    { engineAt .running 0 .begun with
      ring := [0#8, 0#8, 80#8, 0#8, 0x11#8, 0x22#8]
      request := some
        { kind := .data, addr := 0x000240#24, count := 40, epoch := 0#8, granted := true, dropped := false } }

theorem witness_FaultsSkipThenAbort_format :
    badBlock.BindingLaw
      ∧ badBlock.engines[(0 : EngineId)].findsBadBlock badBlock.dir badBlock.slots[(0 : SlotId)].segments
        { start := 0x000200#24, length := 104, coding := 3#8, rate := 2#8, trim := 16#8, valid := true }
      ∧ badBlock.engines[(0 : EngineId)].fetchesPlayed
      ∧ badBlock.slots[(0 : SlotId)].segments[1]? = some (.gap 1) := by
  refine ⟨?_, ⟨⟨1, none, rfl, rfl⟩, rfl, rfl, .inl rfl, by decide, rfl, _, _, _, _, _, _, rfl, by decide⟩, by decide⟩
  unfold State.BindingLaw
  decide

/-- A first fault found in an SD4 block header: the rest of the clip is gone, and the frame is the GAP's first (R74). -/
theorem test_frame_skips_a_bad_block :
    let t := after .frame badBlock
    t.engines[(0 : EngineId)].ring = [] ∧ t.engines[(0 : EngineId)].framesRemaining = 47
      ∧ (t.engines[(0 : EngineId)].request.map BurstRequest.dropped) = some true
      ∧ t.slots[(0 : SlotId)].faultCount = 1 := by
  decide

theorem witness_PrimingAndFadeFrames_priming :
    primingHeader.resetnLow = false ∧ primingHeader.BindingLaw
      ∧ primingHeader.engines[(0 : EngineId)].binding = some 0#8
      ∧ primingHeader.engines[(0 : EngineId)].state = .priming
      ∧ primingHeader.engines[(0 : EngineId)].ring.length < 256
      ∧ primingHeader.engines[(0 : EngineId)].fetch.phase = .header
      ∧ primingHeader.slots[handleSlot 0#8].segments[primingHeader.engines[(0 : EngineId)].play.seg]?
        = some (.clip 0 none false) := by
  refine ⟨by decide, ?_, by decide⟩
  unfold State.BindingLaw
  decide

theorem witness_PrimingAndFadeFrames_fading :
    (stopping 255).BindingLaw ∧ (stopping 256).BindingLaw
      ∧ (stopping 255).engines[(0 : EngineId)].binding = some 0#8 ∧ (stopping 255).engines[(0 : EngineId)].fadePos < 256
      ∧ (stopping 256).engines[(0 : EngineId)].binding = some 0#8 ∧ (stopping 256).engines[(0 : EngineId)].state = .fading
      ∧ (stopping 256).engines[(0 : EngineId)].fadePos = 256 := by
  refine ⟨?_, ?_, by decide⟩ <;> · unfold State.BindingLaw; decide

theorem witness_TicksAndSlewSteps :
    (let s := { granted with clock := ⟨0, 0, 1, 1⟩ }
     s.resetnLow = false ∧ 0 < s.clock.ticksDue ∧ 0 < s.clock.slewsDue)
      ∧ State.reset.clock.ticksDue = 0 ∧ State.reset.clock.slewsDue = 0 := by
  decide

theorem witness_TimersAndRampsEnd :
    (withStage 3 { readyStage with idleTimer := some 0 }).stages[(3 : Zone)].idleTimer = some 0
      ∧ (withStage 3 { Stage.reset with bias := .rampDown }).stages[(3 : Zone)].level = 0
      ∧ (let s := withStage 3 { Stage.reset with bias := .rampUp, level := 1024 }
         s.resetnLow = false ∧ s.stages[(3 : Zone)].bias = .rampUp ∧ s.stages[(3 : Zone)].level = 1024
          ∧ s.stages[(3 : Zone)].fade = none ∧ s.zones[(3 : Zone)] = { owner := none, claimant := none })
      ∧ (let s := { granted with stages := State.reset.stages.set 0 { Stage.reset with bias := .rampUp, level := 1024 } }
         s.zones[(0 : Zone)].claimant = some 0#8 ∧ s.stages[(0 : Zone)].bias = .rampUp
          ∧ s.stages[(0 : Zone)].level = 1024) := by
  decide

/-- The example of chapter 2 with A at priority 3, so that B is the first candidate. -/
def firstB : State := { chapter2 with slots := chapter2.slots.set 2 { chapter2.slots[2] with priority := 3 } }

theorem witness_PassGrantsInOrder :
    (firstB.resetnLow = false ∧ firstB.passPending = true ∧ firstB.order.Nodup ∧ (5 : SlotId) ∈ firstB.order
      ∧ firstB.slots[(5 : SlotId)].state = .queued ∧ firstB.slots[(5 : SlotId)].priority ≤ 7)
      ∧ (∀ j ∈ firstB.order, j ≠ 5 → (firstB.slots[j].state = .queued ∨ firstB.slots[j].state = .granted) →
          firstB.slots[j].priority < firstB.slots[(5 : SlotId)].priority
          ∨ (firstB.slots[j].priority = firstB.slots[(5 : SlotId)].priority
            ∧ firstB.order.idxOf 5 < firstB.order.idxOf j))
      ∧ (∀ z : Zone, inZones 1#4 z = (inZones firstB.slots[(5 : SlotId)].zoneMask z && firstB.stages[z].enabled))
      ∧ (1#4 : ZoneSet) ≠ 0#4
      ∧ (∀ z : Zone, inZones 1#4 z = true → ∀ h ∈ firstB.zones[z].owner,
          firstB.slots[handleSlot h].state = .stopping
            ∨ (firstB.slots[handleSlot h].state = .playing
              ∧ firstB.slots[handleSlot h].priority < firstB.slots[(5 : SlotId)].priority)) := by
  refine ⟨by decide, by decide, by decide, by decide, by decide⟩

/-- The third case: B is the first candidate of a pass whose Z0 has an owner of B's own priority. -/
def secondB : State :=
  { contested .playing 1#4 none with passPending := true }

theorem witness_PassGrantsInOrder_not_granted :
    (secondB.resetnLow = false ∧ secondB.passPending = true ∧ secondB.order.Nodup ∧ (1 : SlotId) ∈ secondB.order
      ∧ secondB.slots[(1 : SlotId)].state = .granted ∧ secondB.slots[(1 : SlotId)].priority ≤ 7)
      ∧ (∀ j ∈ secondB.order, j ≠ 1 → ¬ (secondB.slots[j].state = .queued ∨ secondB.slots[j].state = .granted))
      ∧ (∀ z : Zone, inZones 5#4 z = (inZones secondB.slots[(1 : SlotId)].zoneMask z && secondB.stages[z].enabled))
      ∧ ∃ z : Zone, inZones 5#4 z = true ∧ ∃ h ∈ secondB.zones[z].owner,
          secondB.slots[handleSlot h].state ≠ .stopping
          ∧ (secondB.slots[handleSlot h].state = .playing →
            secondB.slots[(1 : SlotId)].priority ≤ secondB.slots[handleSlot h].priority) := by
  refine ⟨by decide, by decide, by decide, 0, by decide⟩

/-- firstB with a second candidate in slot 4 that is GRANTED and claims Z0, which B is granted in its place. -/
def displacedBehindB : State :=
  { firstB with
    slots := firstB.slots.set 4 (chapter2Slot 1 9#4 .granted none 9#4)
    zones := (firstB.zones.set 0 { owner := some 0#8, claimant := some 4#8 }).set 3 { owner := none, claimant := some 4#8 } }

theorem witness_PassGrantsInOrder_other :
    (displacedBehindB.resetnLow = false ∧ displacedBehindB.passPending = true ∧ displacedBehindB.order.Nodup
      ∧ (5 : SlotId) ∈ displacedBehindB.order ∧ displacedBehindB.slots[(5 : SlotId)].state = .queued)
      ∧ (∀ j ∈ displacedBehindB.order, j ≠ 5 →
          (displacedBehindB.slots[j].state = .queued ∨ displacedBehindB.slots[j].state = .granted) →
          displacedBehindB.slots[j].priority < displacedBehindB.slots[(5 : SlotId)].priority)
      ∧ (∀ z : Zone, inZones 1#4 z
          = (inZones displacedBehindB.slots[(5 : SlotId)].zoneMask z && displacedBehindB.stages[z].enabled))
      ∧ (4 : SlotId) ∈ displacedBehindB.order ∧ displacedBehindB.slots[(4 : SlotId)].state = .granted
      ∧ ∃ z : Zone, inZones 1#4 z = true ∧ inZones displacedBehindB.slots[(4 : SlotId)].zoneMask z = true := by
  decide

/-- A later candidate: B is visited behind A, which wants Z1 and Z2, and is granted Z0; D, which wants Z3, is not granted,
since C before it reserves Z3. -/
theorem witness_PassGrantsInOrder_later :
    chapter2.ZoneLaw
      ∧ (chapter2.visitedBefore 5 2 ∧ (5 : SlotId) ∈ chapter2.order ∧ chapter2.slots[(5 : SlotId)].state = .queued)
      ∧ (∀ z : Zone, inZones 1#4 z = (inZones chapter2.slots[(5 : SlotId)].zoneMask z && chapter2.stages[z].enabled))
      ∧ chapter2.passGrants (after .schedulingPass chapter2) 5 1#4
      ∧ ¬ chapter2.passGrants (after .schedulingPass chapter2) 4 8#4 := by
  refine ⟨?_, by decide, by decide, by decide +kernel, by decide +kernel⟩
  unfold State.ZoneLaw
  decide

theorem witness_PassFrame :
    chapter2.resetnLow = false ∧ chapter2.passPending = true ∧ chapter2.slots[(1 : SlotId)].state = .playing
      ∧ ∀ j : SlotId, (chapter2.slots[j].state = .queued ∨ chapter2.slots[j].state = .granted) →
          chapter2.slots[j].priority ≤ chapter2.slots[(1 : SlotId)].priority := by
  decide

theorem witness_StartBindsAnnouncement :
    (startDue.resetnLow = false ∧ startDue.slots[(0 : SlotId)].startDue = true
      ∧ startDue.slots[(0 : SlotId)].state = .granted
      ∧ (∀ z : Zone, inZones startDue.slots[(0 : SlotId)].effZones z = true →
          startDue.zones[z].owner = none ∧ startDue.stages[z].bias = .ready ∧ startDue.stages[z].fade = none)
      ∧ startDue.engines[(0 : EngineId)].binding = none
      ∧ (∀ e' : EngineId, e' < 0 → startDue.engines[e'].binding ≠ none)
      ∧ startDue.slots[(0 : SlotId)].segments[startDue.slots[(0 : SlotId)].playPos.seg]? = some (.clip 0 none false)
      ∧ startDue.dir.entries[0]?.isSome = true)
      ∧ (let s := { startDue with stages := State.reset.stages.set 0 { readyStage with bias := .rampDown } }
         s.slots[(0 : SlotId)].startDue = true
          ∧ ∃ z : Zone, inZones s.slots[(0 : SlotId)].effZones z = true ∧ s.stages[z].bias ≠ .ready) := by
  decide

theorem witness_FadeEndDisposes :
    ((stopping 256).resetnLow = false ∧ (stopping 256).engines[(0 : EngineId)].state = .fading
      ∧ (stopping 256).engines[(0 : EngineId)].fadePos = 256)
      ∧ (let s := after (.engineFadeDone 0) (stopping 256)
         s.engines[(0 : EngineId)].fadeEndDue = true ∧ s.engines[(0 : EngineId)].binding = some 0#8
          ∧ (0 : SlotId) = handleSlot 0#8 ∧ s.handleAt 0 = 0#8 ∧ s.slots[(0 : SlotId)].state = .stopping
          ∧ s.slots[(0 : SlotId)].engine = some 0
          ∧ s.slots[(0 : SlotId)].stop = some ⟨.preempted, false, some 0x15#8⟩)
      ∧ (let s := contested .stopping 3#4 (some ⟨.cancelled, false, none⟩)
         s.slots[(1 : SlotId)].state = .granted ∧ inZones s.slots[(1 : SlotId)].effZones 0 = true
          ∧ s.zones[(0 : Zone)].owner = some 0#8) := by
  decide

theorem witness_FadeEndDisposes_zoneLaw : (contested .stopping 3#4 (some ⟨.cancelled, false, none⟩)).ZoneLaw := by
  unfold State.ZoneLaw
  decide

theorem witness_CompletionFreesSlot :
    let s := afterAll [.gapEnd 0, .frame] gapOver
    s.resetnLow = false ∧ s.engines[(0 : EngineId)].completionDue = true
      ∧ s.engines[(0 : EngineId)].binding = some 0#8 ∧ (0 : SlotId) = handleSlot 0#8 ∧ s.handleAt 0 = 0#8
      ∧ s.slots[(0 : SlotId)].state = .playing ∧ s.slots[(0 : SlotId)].engine = some 0 := by
  decide

/-- The PLAYING announcement of slot 0 has reported its completion, and that of slot 1 waits for one of its zones. -/
def completing : State :=
  let s := contested .playing 3#4 none
  { s with engines := s.engines.set 0 { s.engines[0] with completionDue := true } }

theorem witness_CompletionFreesSlot_zoneLaw :
    completing.ZoneLaw ∧ (completing.resetnLow = false ∧ completing.engines[(0 : EngineId)].completionDue = true
      ∧ completing.engines[(0 : EngineId)].binding = some 0#8 ∧ completing.handleAt 0 = 0#8
      ∧ completing.slots[(0 : SlotId)].state = .playing ∧ completing.slots[(0 : SlotId)].engine = some 0)
      ∧ completing.slots[(1 : SlotId)].state = .granted ∧ inZones completing.slots[(1 : SlotId)].effZones 0 = true
      ∧ completing.zones[(0 : Zone)].owner = some 0#8 := by
  refine ⟨?_, by decide⟩
  unfold State.ZoneLaw
  decide

theorem witness_ZoneFadeEndsByCause :
    (let s := withStage 1 { readyStage with enabled := false, fade := some ⟨256, 9, .disable⟩ }
     s.resetnLow = false ∧ s.stages[(1 : Zone)].fade = some ⟨256, 9, .disable⟩ ∧ s.stages[(1 : Zone)].bias = .ready
      ∧ s.zones[(1 : Zone)].claimant = none ∧ s.stages[(1 : Zone)].enabled = false)
      ∧ (let s := withStage 1 { readyStage with fade := some ⟨256, 9, .disable⟩ }
         s.zones[(1 : Zone)] = { owner := none, claimant := none } ∧ s.stages[(1 : Zone)].enabled = true)
      ∧ (let s := { granted with stages := State.reset.stages.set 0 { readyStage with fade := some ⟨256, 9, .softReset⟩ } }
         s.zones[(0 : Zone)].claimant = some 0#8 ∧ s.stages[(0 : Zone)].fade = some ⟨256, 9, .softReset⟩) := by
  decide

/-- The loader's header request waits. -/
def loading : State := after .dirLoad State.reset

theorem witness_PortGrantsInOrder :
    ((held .shared (some 4) none none).port.state = .hostHeld)
      ∧ (let s := bursting State.reset (.engine 0 0#8) 8
         s.port.state = .engineBurst ∧ s.port.arriving = none ∧ (∀ mode, s.port.claim ≠ .waiting mode)
          ∧ (∀ e : EngineId, ¬ s.engines[e].waits) ∧ s.dir.progress = none)
      ∧ (let s := bursting chapter7 (.engine 3 0#8) 8
         s.port.state = .engineBurst ∧ s.port.arriving = none ∧ s.port.claim = .waiting .shared)
      ∧ (chapter7.port.state = .idle ∧ chapter7.port.claim = .waiting .shared)
      ∧ (let s := { chapter7 with port := { chapter7.port with claim := .none } }
         (∀ mode, s.port.claim ≠ .waiting mode)
          ∧ (∃ r ∈ s.engines[(2 : EngineId)].request, r.granted = false)
          ∧ ∀ e' : EngineId, s.engines[e'].waits → s.port.turn 2 ≤ s.port.turn e')
      ∧ (loading.port.state = .idle ∧ (∀ e : EngineId, ¬ loading.engines[e].waits)
          ∧ (loading.dir.progress.bind fun p => p.request.map fun r => r.granted) = some false)
      ∧ State.reset.dir.progress = none := by
  refine ⟨by decide, ⟨by decide, by decide, nofun, by decide⟩, by decide, by decide, ⟨nofun, by decide, by decide⟩,
    by decide, by decide⟩

/-- A RUNNING engine whose DATA burst of 64 bytes runs. -/
def fetching (dropped : Bool) : State :=
  bursting (bound (announcement .playing someSegments)
    { engineAt .running 0 .begun with
      reserved := 64
      request := some { kind := .data, addr := 0x108#24, count := 64, epoch := 0#8, granted := true
                        dropped := dropped } }) (.engine 0 0#8) 64

theorem witness_EngineBurstArrives_header :
    let s := primingHeader
    s.resetnLow = false ∧ s.port.arriving = none
      ∧ (s.port.burst.map fun b => (b.requester, b.received, b.count)) = some (.engine 0 0#8, [], 8)
      ∧ clipHeader.length = 8 ∧ s.engines[(0 : EngineId)].epoch = 0#8 ∧ s.engines[(0 : EngineId)].epoch ≠ 1#8
      ∧ s.engines[(0 : EngineId)].binding = some 0#8
      ∧ (s.engines[(0 : EngineId)].request.map fun r => r.kind) = some .header
      ∧ s.engines[(0 : EngineId)].fetch.phase = .header ∧ s.engines[(0 : EngineId)].fetch.lap = .same
      ∧ s.slots[(0 : SlotId)].segments[s.engines[(0 : EngineId)].fetch.seg]? = some (.clip 0 none false)
      ∧ (s.dir.entries[0]?.map fun entry => headerMatches clipHeader entry) = some true
      ∧ (s.dir.entries[0]?.map fun entry => headerMatches (clipHeader.set 7 0#8) entry) = some false
      ∧ s.engines[(0 : EngineId)].play.seg ≤ s.engines[(0 : EngineId)].fetch.seg := by
  decide

/-- The last bytes of the clip run. -/
def fetchingLast : State :=
  { fetching false with
    engines := (fetching false).engines.set 0
      { (fetching false).engines[0] with fetch := { pass := 1, seg := 0, offset := 136, phase := .data, lap := .same } }
    slots := (fetching false).slots.set 0 { (fetching false).slots[0] with segments := [.clip 0 none false] } }

theorem witness_EngineBurstArrives_data :
    (let s := fetching false
     (s.engines[(0 : EngineId)].request.map fun r => (r.kind, r.dropped)) = some (.data, false)
      ∧ (s.port.burst.map fun b => b.count) = some 64 ∧ s.engines[(0 : EngineId)].fetch.offset + 64 < 200)
      ∧ ((fetching true).engines[(0 : EngineId)].request.map fun r => (r.kind, r.dropped)) = some (.data, true)
      ∧ (let s := fetchingLast
         s.engines[(0 : EngineId)].fetch.offset + 64 = 200
          ∧ s.slots[(0 : SlotId)].segments.length = s.engines[(0 : EngineId)].fetch.seg + 1
          ∧ s.slots[(0 : SlotId)].repeatCount ≠ 0
          ∧ s.slots[(0 : SlotId)].repeatCount ≤ s.engines[(0 : EngineId)].fetch.pass)
      ∧ (let p := (afterAll [.dirLoad, .portGrant, .flashClaim, .portGrant] State.reset).port
         ∃ b ∈ p.arriving, p.delivers b { p with arriving := none }) := by
  decide

theorem witness_DirectoryHeaderArrives :
    let s := after .portGrant loading
    s.resetnLow = false ∧ (s.port.burst.map fun b => (b.requester, b.received, b.count)) = some (.loader 1#8, [], 8)
      ∧ s.dir.state = .loading ∧ s.dir.loadNumber = 1#8 ∧ s.dir.loadNumber ≠ 0#8
      ∧ (s.dir.progress.map fun p => p.phase) = some .header
      ∧ 1 ≤ (0#8).toNat + 256 * (2#8).toNat ∧ (0#8).toNat + 256 * (2#8).toNat ≤ 512
      ∧ 512 < (1#8).toNat + 256 * (2#8).toNat := by
  decide

theorem witness_DirectoryEntriesArrive :
    (let s := afterAll [.dirLoad, .portGrant, .loaderBurstArrival [0xA2#8, 0x4C#8, 1#8, 0#8, 6#8, 0#8, 0x25#8, 0x06#8],
        .portGrant] State.reset
     s.resetnLow = false ∧ (s.port.burst.map fun b => (b.requester, b.received, b.count))
        = some (.loader s.dir.loadNumber, [], 12 * chapter5Entries.length)
      ∧ (∀ c ∈ chapter5Entries, c.length = 12) ∧ s.dir.state = .loading
      ∧ (s.dir.progress.map fun p => (p.phase, p.count)) = some (.entries, 6))
      ∧ ((chapter5.port.burst.map fun b => b.count) = some (12 * [chapter5Last].length)
          ∧ chapter5.dir.entries.length + 1 = 6
          ∧ (chapter5.dir.progress.map fun p => (p.sum.toNat + (chapter5Last.map BitVec.toNat).sum) % 65536)
            = (chapter5.dir.progress.map fun p => p.checksum.toNat)) := by
  decide

theorem witness_HostFrames :
    (State.reset.resetnLow = false ∧ State.reset.host.hcsLow = false)
      ∧ (after .hcsFall State.reset).host.frame = some { bits := 0, address := none }
      ∧ (0x3F#6).toNat = (0xFF#8).toNat % 64
      ∧ (framed false true 0x3F#6).host.frame = some ⟨8, some ⟨false, true, 0x3F#6⟩⟩
      ∧ (0#6).toNat = ((0x3F#6).toNat + 1) % 64 := by
  decide

theorem witness_Sd4CodeDecodes :
    let d := { Decoder.cleared with stepIndex := 79 }
    d.stepIndex ≤ 79 ∧ 7 = (0xF#4).toNat % 8
      ∧ (d.stepIndex % 8, 33) ∈ [(0, 16), (1, 18), (2, 20), (3, 22), (4, 24), (5, 27), (6, 30), (7, 33)]
      ∧ (7, (8 : Int)) ∈ [(0, (-1 : Int)), (1, -1), (2, -1), (3, -1), (4, 2), (5, 4), (6, 6), (7, 8)] := by
  decide

/-- One announcement PLAYING, with a frame waiting in the queue of commands. -/
def playingAtFrame : State := playing.withPending [.frame]

theorem witness_EveryStepKeepsTheLaws :
    (playingAtFrame.EventLaw ∧ playingAtFrame.PoolLaw ∧ playingAtFrame.OrderLaw ∧ playingAtFrame.DirectoryLaw)
      ∧ (playingAtFrame.PortLaw ∧ playingAtFrame.MailboxLaw ∧ playingAtFrame.StageLaw ∧ playingAtFrame.RingLaw)
      ∧ (playingAtFrame.BindingLaw ∧ playingAtFrame.ZoneLaw ∧ playingAtFrame.RangeLaw)
      ∧ ∃ t : State, step playingAtFrame = .next t := by
  refine ⟨?_, ?_, ?_, ⟨_, rfl⟩⟩
  · unfold State.EventLaw State.PoolLaw State.OrderLaw State.DirectoryLaw
    decide
  · unfold State.PortLaw State.MailboxLaw State.StageLaw State.RingLaw
    decide
  · refine ⟨?_, ?_, ?_⟩
    · unfold State.BindingLaw
      decide
    · unfold State.ZoneLaw
      decide
    · unfold State.RangeLaw
      decide

end Sys2Proof.Tests
end

/-! ## Chapter 0 proofs: the frame clock, its ticks and slew steps, and the zones at a frame -/

namespace Sys2Proof.Machine

/-! ### Ticks and slew steps -/

/-- The candidates of a pass are the QUEUED and the GRANTED announcements (R35). -/
theorem AnnState.candidate_iff (a : AnnState) : a.candidate = true ↔ a = .queued ∨ a = .granted := by
  cases a <;> simp [AnnState.candidate]

/-- A slew step moves the volume current alone (R128). -/
theorem Stage.slew_eq (g : Stage) :
    g.slew = { g with volumeCurrent :=
      if g.volumeCurrent < g.volumeTarget then g.volumeCurrent + 1
      else if g.volumeTarget < g.volumeCurrent then g.volumeCurrent - 1
      else g.volumeCurrent } := by
  unfold Stage.slew
  split
  · rfl
  · split <;> rfl

/-- A TICK with one fallen counts (R1, log 10). -/
theorem State.takeTick_due {s : State} (due : 0 < s.clock.ticksDue) : s.takeTick = s.countTick := by
  simp [State.takeTick, Nat.ne_of_gt due]

/-- A VOLUME_SLEW_STEP with one fallen moves every volume (R128, log 10). -/
theorem State.takeSlew_due {s : State} (due : 0 < s.clock.slewsDue) : s.takeSlew = s.slewAll := by
  simp [State.takeSlew, Nat.ne_of_gt due]

/-- Settles O36: each row is its function of chapter 0, read record by record. -/
theorem ticksAndSlewSteps : Obligations.TicksAndSlewSteps := by
  intro s up
  have tick : exec .tick s = .next s.takeTick := congrArg _ (State.whenRunning_up up _)
  have slew : exec .volumeSlewStep s = .next s.takeSlew := congrArg _ (State.whenRunning_up up _)
  refine ⟨fun due => ⟨s.countTick, ?_, rfl, fun i => ?_, fun z => ?_, ?_⟩, fun due => ⟨s.slewAll, ?_, rfl, fun z => ?_⟩,
    fun none => ?_, fun none => ?_⟩
  · rw [tick, State.takeTick_due due]
  · simp [State.countTick, Slot.tick, AnnState.candidate_iff]
  · simp [State.countTick, Stage.tick]
  · rcases h : s.port.claim with _ | mode | ⟨mode, _ | n, ending⟩ <;> simp [State.countTick, Claim.tick, h]
  · rw [slew, State.takeSlew_due due]
  · simp [State.slewAll, Stage.slew_eq]
  · rw [tick, State.takeTick, if_pos none]
  · rw [slew, State.takeSlew, if_pos none]

/-! ### The zones at a frame -/

/-- A counter that goes on has not returned to 0, so that its tick or slew step falls exactly where it starts afresh
(R1, log 10). -/
theorem FrameClock.advance_eq (c : FrameClock) :
    c.advance =
      { tick := if c.tick < 47 then c.tick + 1 else 0
        slew := if c.slew < 7 then c.slew + 1 else 0
        ticksDue := c.ticksDue + (if c.tick < 47 then 0 else 1)
        slewsDue := c.slewsDue + (if c.slew < 7 then 0 else 1) } := by
  by_cases tick : c.tick < 47 <;> by_cases slew : c.slew < 7 <;> simp [FrameClock.advance, tick, slew]

/-- The level after one frame of the bias ramp (R123). -/
def Stage.levelAfter (g : Stage) : Nat :=
  match g.bias with
  | .rampUp => min 1024 (g.level + 1)
  | .rampDown => g.level - 1
  | _ => g.level

/-- A frame of the bias ramp moves the level alone (R123). -/
theorem Stage.rampFrame_eq (g : Stage) : g.rampFrame = { g with level := g.levelAfter } := by
  obtain ⟨_, _, _, _, bias, _⟩ := g
  cases bias <;> rfl

/-- A DAC code is twice the level with the audio term, held to 12 bits (R129). -/
theorem dacCode_eq (level : Nat) (audio : Int) :
    dacCode level audio = (max 0 (min 4095 (2 * (level : Int) + audio))).toNat := by
  rw [dacCode, clampInt_eq_max_min (by decide)]

/-- A zone that is handed a sample drives its DAC with it (R127, R129). -/
theorem Stage.frame_owned (g : Stage) (x : Int) :
    g.frame (some x) = { g with
      level := g.levelAfter, lastSample := x, dac := dacCode g.levelAfter (audioTerm x g.volumeCurrent) } := by
  simp [Stage.frame, Stage.rampFrame_eq]

/-- A zone in a zone fade drives its DAC with the held sample, faded, and the fade goes on (R127, R132). -/
theorem Stage.frame_fading {g : Stage} {f : ZoneFade} (fade : g.fade = some f) (going : f.position < 256) :
    g.frame none = { g with
      level := g.levelAfter, fade := some { f with position := f.position + 1 }
      dac := dacCode g.levelAfter (audioTerm (faded f.held f.position) g.volumeCurrent) } := by
  simp [Stage.frame, Stage.rampFrame_eq, fade, going]

/-- A zone with neither owner nor zone fade drives its DAC with the bias alone (R127, R129). -/
theorem Stage.frame_silent {g : Stage} (fade : g.fade = none) :
    g.frame none = { g with level := g.levelAfter, dac := dacCode g.levelAfter 0 } := by
  simp [Stage.frame, Stage.rampFrame_eq, fade]

/-- An announcement is bound to one engine at most (R42). -/
theorem State.BindingLaw.bound_once {s : State} (law : s.BindingLaw) {e e' : EngineId} {h : Handle}
    (b : s.engines[e].binding = some h) (b' : s.engines[e'].binding = some h) : e' = e := by
  have mine : s.slots[handleSlot h].engine = some e := ((law.1 e).2 h b).2.1
  have his : s.slots[handleSlot h].engine = some e' := ((law.1 e').2 h b').2.1
  exact Option.some.inj (his.symm.trans mine)

/-- A zone is handed the sample of the engine bound to its owner (R82, R126). -/
theorem State.zoneSample_owned {s : State} (law : s.BindingLaw) {z : Zone} {h : Handle} {e : EngineId}
    (own : s.zones[z].owner = some h) (b : s.engines[e].binding = some h) :
    s.zoneSample s.engineFrames z = some (s.engineFrame e).sample := by
  have found : (allEngines.find? fun e => s.engines[e].binding == some h) = some e := by
    cases f : allEngines.find? fun e => s.engines[e].binding == some h with
    | none => exact absurd (by simpa using b) (List.find?_eq_none.mp f e (mem_allEngines e))
    | some e' =>
      have b' : s.engines[e'].binding = some h := by simpa using List.find?_some f
      rw [law.bound_once b b']
  simp only [State.zoneSample, own, found]
  simp

/-- A zone without an owner is handed no sample (R127). -/
theorem State.zoneSample_unowned {s : State} {z : Zone} (own : s.zones[z].owner = none) :
    s.zoneSample s.engineFrames z = none := by
  simp only [State.zoneSample, own]

/-- Each zone's stage after a frame. -/
theorem State.takeFrame_stage (s : State) (z : Zone) :
    s.takeFrame.stages[z] = s.stages[z].frame (s.zoneSample s.engineFrames z) := by
  rw [State.takeFrame_eq]; simp

/-- Settles O29: the frame's equation, and each stage's frame by what the zone is handed. -/
theorem frameDrivesZones : Obligations.FrameDrivesZones := by
  intro s up law
  have row : exec .frame s = .next s.takeFrame := congrArg _ (State.whenRunning_up up _)
  refine ⟨s.takeFrame, row, s.clock.advance_eq, rfl, s.takeFrame_engine, fun z level r hl hr => ?_⟩
  have after : s.stages[z].levelAfter = level := hl.symm
  subst hr
  refine ⟨fun h e x own b hx => ?_, fun f own fade going => ?_, fun own fade => ?_⟩
  · rw [State.takeFrame_stage, State.zoneSample_owned law own b, ← hx, Stage.frame_owned, after, dacCode_eq]
    rfl
  · rw [State.takeFrame_stage, State.zoneSample_unowned own, Stage.frame_fading fade going, after, dacCode_eq]
    rfl
  · rw [State.takeFrame_stage, State.zoneSample_unowned own, Stage.frame_silent fade, after, dacCode_eq, Int.add_zero]

end Sys2Proof.Machine

/-! ## The ranges of one record, and what the fetch and play sides keep of an announcement -/

namespace Sys2Proof.Machine

/-! ### The ranges of one record (RangeLaw, record by record) -/

/-- A play position or resume point lies in its range (R7). -/
def Position.Ranged (p : Position) : Prop := p.seg ≤ 31 ∧ 1 ≤ p.pass ∧ p.pass ≤ 255

/-- The first segment of the first pass is in its range. -/
theorem Position.start_ranged : (⟨0, 1⟩ : Position).Ranged := by simp [Position.Ranged]

/-- What the law of ranges says of one announcement (R2, R6 to R10). -/
structure Slot.Ranged (a : Slot) : Prop where
  priority : a.priority ≤ 7
  repeatCount : a.repeatCount ≤ 15
  repeatGap : a.repeatGap ≤ 255
  deadlineSetting : a.deadlineSetting ≤ 255
  deadline : ∀ n ∈ a.deadline, n ≤ 25500
  faultCount : a.faultCount ≤ 2
  underruns : a.underruns ≤ 255
  length : a.segments.length ≤ 32
  segments : ∀ g ∈ a.segments, g.inRange = true
  playPos : a.playPos.Ranged
  resume : ∀ p ∈ a.resume, p.Ranged
  zoneMask : a.state ≠ .free → a.zoneMask ≠ 0#4
  stop : a.state = .stopping ↔ a.stop.isSome = true

/-- What the law of ranges says of one engine: its play cursor's segment and pass. -/
def Engine.Ranged (e : Engine) : Prop := (⟨e.play.seg, e.play.pass⟩ : Position).Ranged

/-- What the law of ranges says of the frame clock (R1). -/
def FrameClock.Ranged (c : FrameClock) : Prop := c.tick ≤ 47 ∧ c.slew ≤ 7

/-- The law of ranges, record by record. -/
theorem State.rangeLaw_iff (s : State) :
    s.RangeLaw ↔ s.clock.Ranged ∧ s.mailbox.foldedEnd ≤ 2 ∧ (∀ i : SlotId, s.slots[i].Ranged)
      ∧ ∀ e : EngineId, s.engines[e].Ranged := by
  constructor
  · rintro ⟨tick, slew, folded, slots, engines⟩
    refine ⟨⟨tick, slew⟩, folded, fun i => ?_, engines⟩
    obtain ⟨priority, repeats, gap, setting, deadline, faults, underruns, length, segments, seg, low, high, resume,
      mask, stop⟩ := slots i
    exact ⟨priority, repeats, gap, setting, deadline, faults, underruns, length, segments, ⟨seg, low, high⟩, resume,
      mask, stop⟩
  · rintro ⟨⟨tick, slew⟩, folded, slots, engines⟩
    refine ⟨tick, slew, folded, fun i => ?_, engines⟩
    obtain ⟨priority, repeats, gap, setting, deadline, faults, underruns, length, segments, ⟨seg, low, high⟩, resume,
      mask, stop⟩ := slots i
    exact ⟨priority, repeats, gap, setting, deadline, faults, underruns, length, segments, seg, low, high, resume,
      mask, stop⟩

/-- An announcement that is not STOPPING has no stopping fields (R6). -/
theorem Slot.Ranged.stop_none {a : Slot} (r : a.Ranged) (h : a.state ≠ .stopping) : a.stop = none := by
  simpa [h] using r.stop

/-- A FREE slot is in its ranges. -/
theorem Slot.free_ranged (g : BitVec 4) : (Slot.free g).Ranged := by
  constructor <;> simp [Slot.free, Position.start_ranged]

/-- An unbound engine is in its range. -/
theorem Engine.idle_ranged (epoch : BitVec 8) : (Engine.idle epoch).Ranged := by
  simp [Engine.idle, Engine.Ranged, Position.start_ranged]

/-! ### Segment lists up to their fault marks -/

/-- A segment record apart from its fault mark (R12). -/
abbrev Segment.unmarked : Segment → Segment := Segment.withFault false

@[simp] theorem Segment.withFault_withFault (f f' : Bool) (g : Segment) :
    (g.withFault f').withFault f = g.withFault f := by
  cases g <;> rfl

@[simp] theorem Segment.inRange_withFault (f : Bool) (g : Segment) : (g.withFault f).inRange = g.inRange := by
  cases g <;> rfl

/-- Two lists of segment records agree apart from the fault marks. -/
def SameSegments (l m : List Segment) : Prop := m.map Segment.unmarked = l.map Segment.unmarked

theorem SameSegments.length_eq {l m : List Segment} (h : SameSegments l m) : m.length = l.length := by
  simpa using congrArg List.length h

/-- Agreeing lists are in their ranges together (R10). -/
theorem SameSegments.inRange {l m : List Segment} (h : SameSegments l m) (r : ∀ g ∈ l, g.inRange = true) :
    ∀ g ∈ m, g.inRange = true := by
  have unmarked : ∀ g ∈ m.map Segment.unmarked, g.inRange = true := by
    rw [show m.map Segment.unmarked = l.map Segment.unmarked from h]
    simpa using r
  simpa using unmarked

/-- Setting or clearing one fault mark (R12). -/
theorem sameSegments_setFault (l : List Segment) (k : Nat) (f : Bool) : SameSegments l (setFault l k f) := by
  apply List.ext_getElem
  · simp [setFault]
  · intro n _ _
    simp only [setFault, List.getElem_map, List.getElem_modify]
    split <;> simp

/-- Clearing every fault mark (R57). -/
theorem sameSegments_clear (l : List Segment) : SameSegments l (l.map (Segment.withFault false)) := by
  simp [SameSegments]

/-- The fetch cursor's walk changes fault marks alone (R64). -/
theorem sameSegments_walkFetch (repeatCount playSeg : Nat) :
    ∀ (fuel : Nat) (l : List Segment) (c : FetchCursor), SameSegments l (walkFetch repeatCount playSeg fuel l c).1
  | 0, _, _ => rfl
  | fuel + 1, l, c => by
    unfold walkFetch
    split
    · split
      · have entered := sameSegments_setFault l c.seg false
        simp only
        split
        · exact entered
        · exact (sameSegments_walkFetch repeatCount playSeg fuel _ _).trans entered
      · rfl
    · split
      · exact sameSegments_walkFetch repeatCount playSeg fuel _ _
      · rfl

/-- A record whose segments changed in their fault marks alone keeps its ranges. -/
theorem Slot.Ranged.remark {a : Slot} {l : List Segment} (r : a.Ranged) (h : SameSegments a.segments l) :
    ({ a with segments := l } : Slot).Ranged :=
  { r with length := h.length_eq.trans_le r.length, segments := h.inRange r.segments }

/-! ### What a step leaves of an announcement's place in pool and list -/

/-- Announcement b stands in the pool and the list as a does: its segments differ in fault marks alone, it is scheduled
exactly where a is, and FREE exactly where a is (R13, R15). -/
structure Slot.SamePlace (a b : Slot) : Prop where
  segments : SameSegments a.segments b.segments
  scheduled : b.state.scheduled = a.state.scheduled
  free : b.state = .free ↔ a.state = .free

theorem Slot.SamePlace.refl (a : Slot) : a.SamePlace a := ⟨rfl, rfl, .rfl⟩

theorem Slot.SamePlace.trans {a b c : Slot} (h : a.SamePlace b) (k : b.SamePlace c) : a.SamePlace c :=
  ⟨k.segments.trans h.segments, k.scheduled.trans h.scheduled, k.free.trans h.free⟩

/-- A record that kept its segments and its state kept its place. -/
theorem Slot.SamePlace.of_eq {a b : Slot} (segments : b.segments = a.segments) (state : b.state = a.state) :
    a.SamePlace b :=
  ⟨congrArg _ segments, congrArg _ state, by rw [state]⟩

/-- A scheduled record that kept its segments and is still scheduled kept its place. -/
theorem Slot.SamePlace.of_scheduled {a b : Slot} (segments : b.segments = a.segments)
    (was : a.state.scheduled = true) (is : b.state.scheduled = true) : a.SamePlace b := by
  refine ⟨congrArg _ segments, is.trans was.symm, ?_, ?_⟩ <;> intro free <;> simp [free, AnnState.scheduled] at was is

/-! ### The fetch side and the play side -/

/-- An engine with its announcement is in its ranges. -/
def Bound.Ranged (b : Bound) : Prop := b.slot.Ranged ∧ b.eng.Ranged

/-- From b to c the announcement kept its place, and the ranges of both records are kept. -/
structure Bound.Keeps (b c : Bound) : Prop where
  place : b.slot.SamePlace c.slot
  ranged : b.Ranged → c.Ranged

theorem Bound.Keeps.refl (b : Bound) : b.Keeps b := ⟨.refl _, id⟩

theorem Bound.Keeps.trans {b c d : Bound} (h : b.Keeps c) (k : c.Keeps d) : b.Keeps d :=
  ⟨h.place.trans k.place, k.ranged ∘ h.ranged⟩

/-- A change of the engine that leaves its play cursor's segment and pass. -/
theorem Bound.Keeps.of_eng {b c : Bound} (slot : c.slot = b.slot) (seg : c.eng.play.seg = b.eng.play.seg)
    (pass : c.eng.play.pass = b.eng.play.pass) : b.Keeps c := by
  refine ⟨slot ▸ .refl _, fun ⟨hs, he⟩ => ⟨slot ▸ hs, ?_⟩⟩
  rw [Engine.Ranged, seg, pass]
  exact he

/-- A change of the fault marks alone (R12). -/
theorem Bound.Keeps.remark {b c : Bound} (h : b.Keeps c) {l : List Segment} (same : SameSegments c.slot.segments l) :
    b.Keeps { c with slot := { c.slot with segments := l } } :=
  h.trans ⟨⟨same, rfl, .rfl⟩, fun ⟨hs, he⟩ => ⟨hs.remark same, he⟩⟩

theorem Bound.Keeps.walkFrom {b c : Bound} (h : b.Keeps c) (k : Nat) : b.Keeps (c.walkFrom k) := by
  have same := sameSegments_walkFetch c.slot.repeatCount c.eng.play.seg (walkFuel c.slot.segments.length)
    c.slot.segments { c.eng.fetch with seg := k }
  exact (h.remark same).trans (.of_eng rfl rfl rfl)

theorem Bound.Keeps.retryFetch {b c : Bound} (h : b.Keeps c) : b.Keeps c.retryFetch := by
  unfold Bound.retryFetch
  split
  · exact h.walkFrom _
  · exact h

theorem Bound.Keeps.considerRequest {b c : Bound} (h : b.Keeps c) (d : Directory) : b.Keeps (c.considerRequest d) := by
  obtain ⟨r, eq⟩ := c.considerRequest_frame d
  rw [eq]
  exact h.trans (.of_eng rfl rfl rfl)

theorem Bound.takeHeader_keeps (b : Bound) (d : Directory) (data : List Byte) : b.Keeps (b.takeHeader d data) := by
  unfold Bound.takeHeader
  split
  · exact .of_eng rfl rfl rfl
  · exact ((Bound.Keeps.refl b).remark (sameSegments_setFault _ _ _)).walkFrom _

theorem Bound.takeData_keeps (b : Bound) (d : Directory) (data : List Byte) : b.Keeps (b.takeData d data) := by
  simp only [Bound.takeData]
  split
  · refine .walkFrom ?_ _
    exact .of_eng rfl rfl rfl
  · exact .of_eng rfl rfl rfl

/-- The arrival of a burst keeps the announcement's place and the ranges (R63, R66). -/
theorem Bound.takeArrival_keeps (b : Bound) (d : Directory) (data : List Byte) : b.Keeps (b.takeArrival d data) := by
  unfold Bound.takeArrival
  split
  · have opened : b.Keeps { b with eng := { b.eng with request := none } } := .of_eng rfl rfl rfl
    refine .considerRequest ?_ d
    split
    · exact opened.trans (Bound.takeHeader_keeps _ d data)
    · exact opened.trans (Bound.takeData_keeps _ d data)
    · exact .of_eng rfl rfl rfl
  · exact .refl b

/-- A bind keeps the announcement's place, and starts the engine in the range of the play position (R57). -/
theorem bindEngine_keeps (d : Directory) (e : Engine) (a : Slot) (h : Handle) :
    a.SamePlace (bindEngine d e a h).slot ∧ (a.Ranged → (bindEngine d e a h).Ranged) := by
  have same := sameSegments_clear a.segments
  have k : Bound.Keeps
      { eng := e.bound h a.playPos, slot := { a with segments := a.segments.map (Segment.withFault false) } }
      (bindEngine d e a h) :=
    ((Bound.Keeps.refl _).walkFrom _).considerRequest d
  have cleared : a.SamePlace { a with segments := a.segments.map (Segment.withFault false) } := ⟨same, rfl, .rfl⟩
  exact ⟨cleared.trans k.place, fun r => k.ranged ⟨r.remark same, r.playPos⟩⟩

/-- A step of the play side keeps its announcement's place and the ranges. -/
abbrev Play.Keeps (p q : Play) : Prop := p.bound.Keeps q.bound

/-- A change of the play side's engine that leaves its play cursor's segment and pass. -/
theorem Play.Keeps.of_eng {p q : Play} (slot : q.slot = p.slot) (seg : q.eng.play.seg = p.eng.play.seg)
    (pass : q.eng.play.pass = p.eng.play.pass) : p.Keeps q := Bound.Keeps.of_eng slot seg pass

theorem Play.Keeps.writePosition {p q : Play} (h : p.Keeps q) : p.Keeps q.writePosition := by
  unfold Play.writePosition
  split
  · exact h.trans ⟨.of_eq rfl rfl, fun ⟨hs, he⟩ => ⟨{ hs with playPos := he }, he⟩⟩
  · exact h

/-- A pass that goes on is at least 1 and at most 255 (R7). -/
theorem one_le_satSucc255 (n : Nat) : 1 ≤ satSucc255 n := by
  unfold satSucc255; split <;> omega

/-- The play cursor that leaves its segment stands in a segment of the list, or at the start of a pass (R68, R76). -/
theorem Play.leave_keeps (p : Play) : p.Keeps p.leave := by
  simp only [Play.leave]
  split
  · next more =>
    have moved : p.Keeps (p.withEng { p.eng with
        play := { p.eng.play with seg := p.eng.play.seg + 1 }, progress := .fresh, clipPos := 0 }) := by
      refine ⟨.refl _, fun ⟨hs, he⟩ => ⟨hs, ?_, he.2⟩⟩
      have : p.eng.play.seg + 1 < 32 := more.trans_le hs.length
      exact Nat.le_of_lt_succ this
    exact .writePosition moved.retryFetch
  · split
    · refine .writePosition (.retryFetch ?_)
      exact ⟨.refl _, fun ⟨hs, _⟩ => ⟨hs, Nat.zero_le _, one_le_satSucc255 _, satSucc255_le _⟩⟩
    · exact .of_eng rfl rfl rfl

/-- A withdrawn request leaves the play cursor. -/
@[simp] theorem Engine.withdrawUngranted_play (e : Engine) : e.withdrawUngranted.play = e.play := by
  unfold Engine.withdrawUngranted
  split
  · split <;> rfl
  · rfl

/-- The announcement whose segment is found faulted keeps its place: a PLAYING one that is aborted is STOPPING, and no
other changes its state (R6, R75). -/
theorem Play.countFault_keeps (p : Play) (kind : FaultKind) : p.Keeps (p.countFault kind) := by
  unfold Play.countFault
  split
  · exact .refl _
  · next few =>
    have counted : p.slot.Ranged → ({ p.slot with faultCount := p.slot.faultCount + 1 } : Slot).Ranged :=
      fun hs => { hs with faultCount := by simp only; omega }
    simp only
    split
    · split
      · next playing =>
        replace playing : p.slot.state = .playing := playing
        have was : p.slot.state.scheduled = true := by rw [playing]; rfl
        have live : p.slot.state ≠ .free := by rw [playing]; decide
        exact ⟨.of_scheduled rfl was rfl, fun ⟨hs, he⟩ =>
          ⟨{ counted hs with zoneMask := fun _ => hs.zoneMask live, stop := iff_of_true rfl rfl }, he⟩⟩
      · next stopping _ =>
        exact ⟨.of_eq rfl rfl, fun ⟨hs, he⟩ => ⟨{ counted hs with stop := iff_of_true stopping rfl }, he⟩⟩
      · exact ⟨.of_eq rfl rfl, fun ⟨hs, he⟩ => ⟨counted hs, he⟩⟩
    · exact ⟨.of_eq rfl rfl, fun ⟨hs, he⟩ => ⟨counted hs, he⟩⟩

theorem Play.resume_keeps (p : Play) : p.Keeps p.resume := .of_eng rfl rfl rfl

theorem Play.stall_keeps (p : Play) : p.Keeps p.stall := by
  simp only [Play.stall]
  split
  · exact .of_eng rfl rfl rfl
  · exact ⟨.of_eq rfl rfl, fun ⟨hs, he⟩ => ⟨{ hs with underruns := satSucc255_le _ }, he⟩⟩

theorem Play.formatFault_keeps (p : Play) (clipLength : Nat) : p.Keeps (p.formatFault clipLength) := by
  simp only [Play.formatFault]
  refine .trans ?_ (Play.countFault_keeps _ _)
  split
  · refine .walkFrom ?_ _
    exact .of_eng rfl rfl rfl
  · exact .of_eng rfl rfl rfl

theorem Play.passMark_keeps (p : Play) (value : Byte) : p.Keeps (p.passMark value) := by
  unfold Play.passMark
  split <;> exact .refl _

theorem Play.enterClip_keeps (p : Play) : p.Keeps p.enterClip := by
  unfold Play.enterClip
  split
  · exact .of_eng rfl rfl rfl
  · exact .refl _

/-- The play side that a frame of a CLIP leaves, whatever it gives. -/
def ClipFrame.play : ClipFrame → Play
  | .output p _ => p
  | .over p => p
  | .faulted p => p

/-- One frame of a CLIP moves no play cursor (R70). -/
theorem Play.clipFrame_keeps (p : Play) (entry : ClipEntry) (trim : Option Nat) :
    p.Keeps (p.clipFrame entry trim).play := by
  simp only [Play.clipFrame]
  split
  · exact .of_eng rfl rfl rfl
  · split
    · exact .of_eng rfl rfl rfl
    · split
      · exact p.stall_keeps
      · exact .of_eng rfl rfl rfl
      · exact .of_eng rfl rfl rfl

/-- The play side's way through one frame keeps the announcement's place and the ranges (R68). -/
theorem playLoop_keeps (d : Directory) : ∀ (fuel : Nat) (p : Play), p.Keeps (playLoop d fuel p).1
  | 0, p => .refl _
  | fuel + 1, p => by
    have go (q : Play) (h : p.Keeps q) : p.Keeps (playLoop d fuel q).1 := h.trans (playLoop_keeps d fuel q)
    have leave (q : Play) (h : p.Keeps q) : p.Keeps (playLoop d fuel q.leave).1 := go _ (h.trans q.leave_keeps)
    unfold playLoop
    split
    · exact .refl _
    · exact .refl _
    · split
      · exact go _ (.of_eng rfl rfl rfl)
      · exact .of_eng rfl rfl rfl
    · split
      · exact .refl _
      · exact leave _ (p.passMark_keeps _)
      · split
        · exact leave _ (.refl _)
        · split <;> exact .of_eng rfl rfl rfl
      · next n trim fault _ =>
        simp only
        split
        · have counted : p.Keeps (p.enterClip.resume.countFault .headerMismatch) :=
            (p.enterClip_keeps.trans (Play.resume_keeps _)).trans (Play.countFault_keeps _ _)
          split
          · exact counted
          · exact leave _ counted
        · have clip := p.enterClip_keeps.trans (Play.clipFrame_keeps _ (d.entry n) trim)
          split
          · next h => rw [h] at clip; exact clip
          · next h => rw [h] at clip; exact leave _ clip
          · next h =>
            rw [h] at clip
            have counted := clip.trans (Play.formatFault_keeps _ (d.entry n).length)
            split
            · exact counted
            · exact leave _ counted

theorem Play.run_keeps (d : Directory) (p : Play) : p.Keeps (p.run d).1 := playLoop_keeps d _ p

/-- A frame of the fade leaves the play cursor (R80). -/
@[simp] theorem Engine.advanceFade_play (e : Engine) : e.advanceFade.play = e.play := by
  simp only [Engine.advanceFade]
  split
  · simp
  · rfl

/-- One frame of a bound engine keeps the announcement's place and the ranges (R56). -/
theorem Play.frame_keeps (d : Directory) (p : Play) : p.Keeps (p.frame d).1 := by
  have fade (q : Play) (h : p.Keeps q) : p.Keeps (q.withEng q.eng.advanceFade) :=
    h.trans (.of_eng rfl (congrArg PlayCursor.seg (Engine.advanceFade_play _))
      (congrArg PlayCursor.pass (Engine.advanceFade_play _)))
  have run (x : Engine) (h : x.play = p.eng.play) : p.Keeps ((p.withEng x).run d).1 :=
    have started : p.Keeps (p.withEng x) := .of_eng rfl (congrArg PlayCursor.seg h) (congrArg PlayCursor.pass h)
    started.trans (Play.run_keeps d _)
  unfold Play.frame
  split
  · exact .refl _
  · split
    · exact run _ rfl
    · exact .refl _
  · exact p.run_keeps d
  · exact p.run_keeps d
  · split
    · exact .refl _
    · split
      · exact fade p (.refl _)
      · exact fade _ (run { p.eng with fadePriming := false } rfl)

/-- The records a frame leaves for engine e and its announcement (R56). -/
theorem State.engineFrame_keeps (s : State) (e : EngineId) :
    (∀ w ∈ (s.engineFrame e).slot, s.slots[w.1].SamePlace w.2 ∧ (s.RangeLaw → w.2.Ranged))
      ∧ (s.RangeLaw → (s.engineFrame e).eng.Ranged) := by
  cases b : s.engines[e].binding with
  | none =>
    simp only [Fin.getElem_fin] at b
    refine ⟨by simp [State.engineFrame, b], fun law => ?_⟩
    simpa [State.engineFrame, b] using ((s.rangeLaw_iff.mp law).2.2.2 e)
  | some h =>
    have k := (Play.frame_keeps s.dir { bound := { eng := s.engines[e], slot := s.slots[handleSlot h] }, handle := h
                                        events := [], pass := false }).considerRequest s.dir
    have ranged (law : s.RangeLaw) := k.ranged
      ⟨(s.rangeLaw_iff.mp law).2.2.1 (handleSlot h), (s.rangeLaw_iff.mp law).2.2.2 e⟩
    rw [State.engineFrame_eq b]
    refine ⟨fun w hw => ?_, fun law => (ranged law).2⟩
    obtain rfl := Option.some.inj hw
    exact ⟨k.place, fun law => (ranged law).1⟩

end Sys2Proof.Machine

/-! ## The laws of pool, list and ranges under the shared operations of the state -/

namespace Sys2Proof.Machine

/-! ### The laws of pool, list and ranges, and the steps that keep them -/

/-- What a step must keep: the laws of pool and list together, and the law of ranges by itself. -/
structure State.KeepsTables (s t : State) : Prop where
  tables : s.PoolLaw → s.OrderLaw → t.PoolLaw ∧ t.OrderLaw
  ranged : s.RangeLaw → t.RangeLaw

theorem State.KeepsTables.refl (s : State) : s.KeepsTables s := ⟨.intro, id⟩

theorem State.KeepsTables.trans {s t u : State} (h : s.KeepsTables t) (k : t.KeepsTables u) : s.KeepsTables u :=
  ⟨fun pool order => (h.tables pool order).elim k.tables, k.ranged ∘ h.ranged⟩

/-- A step that moves nothing between pool, list and slots: every announcement keeps its place, and the ranges are
kept. -/
structure State.Quiet (s t : State) : Prop where
  poolFree : t.poolFree = s.poolFree
  order : t.order = s.order
  place : ∀ i : SlotId, s.slots[i].SamePlace t.slots[i]
  ranged : s.RangeLaw → t.RangeLaw

theorem State.Quiet.refl (s : State) : s.Quiet s := ⟨rfl, rfl, fun _ => .refl _, id⟩

theorem State.Quiet.trans {s t u : State} (h : s.Quiet t) (k : t.Quiet u) : s.Quiet u :=
  ⟨k.poolFree.trans h.poolFree, k.order.trans h.order, fun i => (h.place i).trans (k.place i), k.ranged ∘ h.ranged⟩

/-- A quiet step leaves the sum of R13 and the list of R15. -/
theorem State.Quiet.keeps {s t : State} (h : s.Quiet t) : s.KeepsTables t := by
  have length (i : SlotId) : t.slots[i].segments.length = s.slots[i].segments.length := (h.place i).segments.length_eq
  refine ⟨fun ⟨sum, lists⟩ ⟨nodup, mem⟩ => ⟨⟨?_, fun i => ⟨?_, fun free => ?_⟩⟩, ?_, fun i => ?_⟩, h.ranged⟩
  · simpa only [h.poolFree, length] using sum
  · exact (length i).trans_le (lists i).1
  · rw [← List.length_eq_zero_iff, length, (lists i).2 ((h.place i).free.mp free), List.length_nil]
  · exact h.order ▸ nodup
  · rw [h.order, (h.place i).scheduled]
    exact mem i

/-- A quiet step keeps what is scheduled. -/
theorem State.Quiet.scheduled {s t : State} (h : s.Quiet t) {i : SlotId} (was : s.slots[i].state.scheduled = true) :
    t.slots[i].state.scheduled = true := (h.place i).scheduled.trans was

/-- A step that touches none of the records the laws speak of. -/
theorem State.Quiet.of_frame {s t : State} (slots : t.slots = s.slots) (poolFree : t.poolFree = s.poolFree)
    (order : t.order = s.order) (engines : t.engines = s.engines) (clock : t.clock = s.clock)
    (folded : t.mailbox.foldedEnd = s.mailbox.foldedEnd) : s.Quiet t := by
  refine ⟨poolFree, order, fun i => by rw [slots]; exact .refl _, fun law => ?_⟩
  rw [State.rangeLaw_iff, slots, engines, clock, folded]
  exact s.rangeLaw_iff.mp law

/-- A step on slots alone, each of which keeps its place and its ranges. -/
theorem State.Quiet.of_slots {s : State} {slots : Vector Slot 16}
    (place : ∀ i : SlotId, s.slots[i].SamePlace slots[i]) (ranged : s.RangeLaw → ∀ i : SlotId, slots[i].Ranged) :
    s.Quiet { s with slots := slots } := by
  refine ⟨rfl, rfl, place, fun law => ?_⟩
  obtain ⟨clock, folded, -, engines⟩ := s.rangeLaw_iff.mp law
  exact (State.rangeLaw_iff _).mpr ⟨clock, folded, ranged law, engines⟩

/-- An update of one slot that keeps its place. -/
theorem State.setSlot_place {s : State} {i : SlotId} {x : Slot} (place : s.slots[i].SamePlace x) (j : SlotId) :
    s.slots[j].SamePlace (s.setSlot i x).slots[j] := by
  by_cases e : j = i
  · subst e; simpa using place
  · rw [s.setSlot_get_other i j x e]; exact .refl _

/-- An update of one slot that keeps its place and its ranges. -/
theorem State.Quiet.setSlot {s t : State} (h : s.Quiet t) {i : SlotId} {x : Slot} (place : t.slots[i].SamePlace x)
    (ranged : t.slots[i].Ranged → x.Ranged) : s.Quiet (t.setSlot i x) := by
  refine h.trans (.of_slots (State.setSlot_place place) fun law j => ?_)
  have slots := (t.rangeLaw_iff.mp law).2.2.1
  by_cases e : j = i
  · subst e; simpa using ranged (slots j)
  · exact (t.setSlot_get_other i j x e).symm ▸ slots j

/-- An update of one engine that is in its range where the laws hold. -/
theorem State.Quiet.setEngine {s t : State} (h : s.Quiet t) {e : EngineId} {x : Engine}
    (ranged : t.RangeLaw → x.Ranged) : s.Quiet (t.setEngine e x) := by
  refine h.trans ⟨rfl, rfl, fun _ => .refl _, fun law => ?_⟩
  obtain ⟨clock, folded, slots, engines⟩ := t.rangeLaw_iff.mp law
  refine (State.rangeLaw_iff _).mpr ⟨clock, folded, slots, fun f => ?_⟩
  by_cases same : f = e
  · subst same; simpa using ranged law
  · exact (t.setEngine_get_other e f x same).symm ▸ engines f

/-- An update of one engine that leaves its play cursor's segment and pass. -/
theorem State.Quiet.setEngine_of_play {s t : State} (h : s.Quiet t) {e : EngineId} {x : Engine}
    (play : x.play = t.engines[e].play) : s.Quiet (t.setEngine e x) := by
  refine h.setEngine fun law => ?_
  rw [Engine.Ranged, play]
  exact (t.rangeLaw_iff.mp law).2.2.2 e

/-- Updates of everything but the records the laws speak of. -/
theorem State.Quiet.setZone {s t : State} (h : s.Quiet t) (z : Zone) (x : ZoneRec) : s.Quiet (t.setZone z x) :=
  h.trans (.of_frame rfl rfl rfl rfl rfl rfl)

theorem State.Quiet.setStage {s t : State} (h : s.Quiet t) (z : Zone) (x : Stage) : s.Quiet (t.setStage z x) :=
  h.trans (.of_frame rfl rfl rfl rfl rfl rfl)

theorem State.Quiet.setDir {s t : State} (h : s.Quiet t) (x : Directory) : s.Quiet (t.setDir x) :=
  h.trans (.of_frame rfl rfl rfl rfl rfl rfl)

theorem State.Quiet.setPort {s t : State} (h : s.Quiet t) (x : Port) : s.Quiet (t.setPort x) :=
  h.trans (.of_frame rfl rfl rfl rfl rfl rfl)

theorem State.Quiet.offer {s t : State} (h : s.Quiet t) (r : EventRecord) : s.Quiet (t.offer r) :=
  h.trans (.of_frame rfl rfl rfl rfl rfl rfl)

theorem State.Quiet.offerFrom {s t : State} (h : s.Quiet t) (l : List (List EventRecord)) : s.Quiet (t.offerFrom l) :=
  h.trans (.of_frame rfl rfl rfl rfl rfl rfl)

theorem State.Quiet.requestPass {s t : State} (h : s.Quiet t) : s.Quiet t.requestPass :=
  h.trans (.of_frame rfl rfl rfl rfl rfl rfl)

theorem State.Quiet.settleIdle {s t : State} (h : s.Quiet t) (z : Zone) : s.Quiet (t.settleIdle z) := by
  rw [State.settleIdle_eq]
  exact h.setStage z _

theorem State.KeepsTables.requestPass {s t : State} (h : s.KeepsTables t) : s.KeepsTables t.requestPass :=
  h.trans (State.Quiet.refl t).requestPass.keeps

/-! ### One slot that changes its place -/

/-- The lengths of all lists, where one of them changes. -/
theorem sum_allSlots_update {f g : SlotId → Nat} (i : SlotId) (same : ∀ j, j ≠ i → g j = f j) :
    (allSlots.map g).sum + f i = (allSlots.map f).sum + g i := by
  have rest : (allSlots.erase i).map g = (allSlots.erase i).map f :=
    List.map_congr_left fun j hj => same j ((List.Nodup.mem_erase_iff (by decide)).mp hj).1
  have hf := List.sum_map_erase f (mem_allSlots i)
  have hg := List.sum_map_erase g (mem_allSlots i)
  rw [rest] at hg
  omega

/-- Slot i becomes x, with its records given to or taken from the pool (R13). -/
theorem State.PoolLaw.update {s t : State} {i : SlotId} {x : Slot} (law : s.PoolLaw)
    (slots : t.slots = s.slots.set i x)
    (pool : t.poolFree + x.segments.length = s.poolFree + s.slots[i].segments.length)
    (length : x.segments.length ≤ 32) (free : x.state = .free → x.segments = []) : t.PoolLaw := by
  obtain ⟨sum, lists⟩ := law
  have self : t.slots[i] = x := by simp [slots]
  have other (j : SlotId) (h : j ≠ i) : t.slots[j] = s.slots[j] := by
    rw [slots]; exact s.setSlot_get_other i j x h
  refine ⟨?_, fun j => ?_⟩
  · have total := sum_allSlots_update (f := fun j => s.slots[j].segments.length)
      (g := fun j => t.slots[j].segments.length) i fun j h => by rw [other j h]
    simp only [self] at total
    omega
  · by_cases h : j = i
    · subst h; rw [self]; exact ⟨length, free⟩
    · rw [other j h]; exact lists j

/-- Slot i becomes x, and the list gains or loses its entry alone (R15). -/
theorem State.OrderLaw.update {s t : State} {i : SlotId} {x : Slot} (law : s.OrderLaw)
    (slots : t.slots = s.slots.set i x) (nodup : t.order.Nodup) (self : i ∈ t.order ↔ x.state.scheduled = true)
    (other : ∀ j : SlotId, j ≠ i → (j ∈ t.order ↔ j ∈ s.order)) : t.OrderLaw := by
  refine ⟨nodup, fun j => ?_⟩
  by_cases h : j = i
  · subst h; simpa [slots] using self
  · rw [other j h, slots, law.2 j]
    exact (congrArg (fun a : Slot => a.state.scheduled = true) (s.setSlot_get_other i j x h)).to_iff.symm

/-- Slot i becomes a record in its ranges. -/
theorem State.RangeLaw.update {s t : State} {i : SlotId} {x : Slot} (law : s.RangeLaw)
    (slots : t.slots = s.slots.set i x) (ranged : x.Ranged) (engines : t.engines = s.engines)
    (clock : t.clock = s.clock) (folded : t.mailbox.foldedEnd = s.mailbox.foldedEnd) : t.RangeLaw := by
  obtain ⟨hc, hm, hs, he⟩ := s.rangeLaw_iff.mp law
  rw [State.rangeLaw_iff, engines, clock, folded]
  refine ⟨hc, hm, fun j => ?_, he⟩
  rw [slots]
  by_cases h : j = i
  · subst h; simpa using ranged
  · exact (s.setSlot_get_other i j x h).symm ▸ hs j

/-- A slot is freed: its records go back to the pool and its entry leaves the list (R28, R31). -/
theorem State.KeepsTables.of_freed {s t : State} {i : SlotId} {g : BitVec 4}
    (slots : t.slots = s.slots.set i (Slot.free g)) (pool : t.poolFree = s.poolFree + s.slots[i].segments.length)
    (order : t.order = s.order.filter fun j => j != i) (engines : t.engines = s.engines) (clock : t.clock = s.clock)
    (folded : t.mailbox.foldedEnd = s.mailbox.foldedEnd) : s.KeepsTables t := by
  refine ⟨fun pl ol => ⟨pl.update slots ?_ (Nat.zero_le _) fun _ => rfl, ol.update slots ?_ ?_ fun j h => ?_⟩,
    fun law => law.update slots (Slot.free_ranged g) engines clock folded⟩
  · simpa [Slot.free] using pool
  · rw [order]; exact ol.1.filter _
  · simp [order, Slot.free, AnnState.scheduled]
  · simp [order, h]

theorem State.freeSlot_keeps (s : State) (i : SlotId) (o : AnnOutcome) : s.KeepsTables (s.freeSlot i o) :=
  .of_freed rfl rfl rfl rfl rfl rfl

theorem State.freeSlotInReset_keeps (s : State) (i : SlotId) : s.KeepsTables (s.freeSlotInReset i) := by
  unfold State.freeSlotInReset
  simp only
  split
  · exact .refl s
  · exact .of_freed rfl rfl rfl rfl rfl rfl

/-! ### Claims, owners, the start check and the end of a fade -/

/-- The mark that a start is due has no place and no range. -/
theorem Slot.Ranged.withDue {a : Slot} (r : a.Ranged) (due : Bool) : ({ a with startDue := due } : Slot).Ranged :=
  { r with }

/-- Neither have the effective zones and the engine. -/
theorem Slot.Ranged.unbound {a : Slot} (r : a.Ranged) : ({ a with effZones := 0#4, engine := none } : Slot).Ranged :=
  { r with }

/-- An announcement that is scheduled and not STOPPING, and then in another such state, keeps its ranges. -/
theorem Slot.Ranged.withState {a : Slot} (r : a.Ranged) (st : AnnState) (live : a.state ≠ .free)
    (going : a.state ≠ .stopping) (goes : st ≠ .stopping) : ({ a with state := st } : Slot).Ranged :=
  { r with zoneMask := fun _ => r.zoneMask live, stop := by simp [goes, r.stop_none going] }

theorem State.Quiet.withdrawClaims {s t : State} (k : s.Quiet t) (h : Handle) : s.Quiet (t.withdrawClaims h) := by
  obtain ⟨zones, stages, eq, -⟩ := t.withdrawClaims_eq h
  rw [eq]
  exact k.trans (.of_frame rfl rfl rfl rfl rfl rfl)

/-- A GRANTED announcement that loses its claims is QUEUED (R39). -/
theorem Slot.loseClaims_keeps (a : Slot) : a.SamePlace a.loseClaims ∧ (a.Ranged → a.loseClaims.Ranged) := by
  unfold Slot.loseClaims
  split
  · next granted =>
    refine ⟨.of_scheduled rfl (by rw [granted]; rfl) rfl, fun r => ?_⟩
    exact { r.withState .queued (by simp [granted]) (by simp [granted]) (by decide) with }
  · exact ⟨.refl a, id⟩

theorem State.Quiet.claimLoss {s t : State} (h : s.Quiet t) (i : SlotId) : s.Quiet (t.claimLoss i) :=
  (h.withdrawClaims _).setSlot (Slot.loseClaims_keeps _).1 (Slot.loseClaims_keeps _).2

theorem State.Quiet.startCheck {s t : State} (h : s.Quiet t) (i : SlotId) : s.Quiet (t.startCheck i) := by
  rw [State.startCheck_eq]
  exact h.setSlot (.of_eq rfl rfl) fun r => r.withDue _

theorem State.Quiet.startCheckZone {s t : State} (h : s.Quiet t) (z : Zone) : s.Quiet (t.startCheckZone z) := by
  unfold State.startCheckZone
  split
  · exact h.startCheck _
  · exact h

theorem State.Quiet.releaseZones {s t : State} (k : s.Quiet t) (h : Handle) : s.Quiet (t.releaseZones h) := by
  obtain ⟨zones, stages, slots, eq, due, -⟩ := t.releaseZones_eq h
  have marked : t.Quiet { t with slots := slots } := by
    refine .of_slots (fun j => ?_) fun law j => ?_ <;> obtain ⟨d, hd⟩ := due j <;> rw [hd]
    · exact .of_eq rfl rfl
    · exact ((t.rangeLaw_iff.mp law).2.2.1 j).withDue d
  rw [eq]
  exact k.trans (marked.trans (.of_frame rfl rfl rfl rfl rfl rfl))

theorem State.Quiet.unbindOf {s t : State} (h : s.Quiet t) (i : SlotId) : s.Quiet (t.unbindOf i) := by
  unfold State.unbindOf
  split
  · exact h.setEngine fun _ => Engine.idle_ranged _
  · exact h

theorem State.Quiet.giveUp {s t : State} (h : s.Quiet t) (i : SlotId) : s.Quiet (t.giveUp i) := by
  have released := (h.releaseZones (t.handleAt i)).unbindOf i
  simp only [State.giveUp]
  exact released.setSlot (.of_eq rfl rfl) Slot.Ranged.unbound

/-- What entering STOPPING does to the slots (R6). -/
theorem State.enterStopping_slots (s : State) (i : SlotId) (why : Stopping) :
    (s.enterStopping i why).slots = s.slots.set i { s.slots[i] with state := .stopping, stop := some why } := by
  simp only [State.enterStopping]
  split <;> rfl

theorem State.Quiet.enterStopping {s t : State} (h : s.Quiet t) {i : SlotId} (playing : t.slots[i].state = .playing)
    (why : Stopping) : s.Quiet (t.enterStopping i why) := by
  have was : t.slots[i].state.scheduled = true := by rw [playing]; rfl
  have stopped (u : State) (slots : u.slots = t.slots) (k : s.Quiet u) :
      s.Quiet (u.setSlot i { u.slots[i] with state := .stopping, stop := some why }) := by
    refine k.setSlot (.of_scheduled rfl (slots ▸ was) rfl) fun r => ?_
    exact { r with zoneMask := fun _ => r.zoneMask (by rw [slots, playing]; decide), stop := iff_of_true rfl rfl }
  simp only [State.enterStopping]
  split
  · exact stopped _ rfl (h.setEngine_of_play rfl)
  · exact stopped _ rfl h

/-- A scheduled announcement is not FREE. -/
theorem AnnState.ne_free_of_scheduled {a : AnnState} (h : a.scheduled = true) : a ≠ .free := by
  rintro rfl; cases h

/-- A requeued announcement was scheduled and is QUEUED (R49). -/
theorem State.requeue_quiet {s : State} {i : SlotId} (was : s.slots[i].state.scheduled = true) (a : RequeueAction)
    (by_ : Byte) : s.Quiet (s.requeue i a by_) := by
  unfold State.requeue
  refine .offer ?_ _
  refine .setSlot (.refl s) ?_ fun r => ?_
  · exact .of_scheduled rfl was rfl
  have live := r.zoneMask (AnnState.ne_free_of_scheduled was)
  cases a with
  | restart =>
    exact { r with
      playPos := Position.start_ranged, resume := by simp, zoneMask := fun _ => live
      stop := by simp }
  | resume =>
    exact { r with resume := by simpa using r.playPos, zoneMask := fun _ => live, stop := by simp }

theorem State.dispose_keeps {s : State} {i : SlotId} (was : s.slots[i].state.scheduled = true) :
    s.KeepsTables (s.dispose i) := by
  rcases s.dispose_cases i with ⟨o, eq⟩ | ⟨a, by_, eq⟩ <;> rw [eq]
  · exact s.freeSlot_keeps i o
  · exact (State.requeue_quiet was a by_).keeps

theorem State.endFade_keeps {s : State} {i : SlotId} (was : s.slots[i].state.scheduled = true) :
    s.KeepsTables (s.endFade i) := by
  have gave := (State.Quiet.refl s).giveUp i
  exact (gave.keeps.trans (State.dispose_keeps (gave.scheduled was))).requestPass

end Sys2Proof.Machine

/-! ## The laws of pool, list and ranges under the host's commands and bytes -/

namespace Sys2Proof.Machine

/-! ### The commands of the Announcement Table -/

/-- Whatever the parameters and the state, the body of a command keeps the laws of pool, list and ranges. -/
def Body.Keeps (body : Body) : Prop := ∀ (p : Params) (s : State), s.KeepsTables (body p s).1

/-- What ANN_OPEN's checks leave of its parameters (R17). -/
theorem openPolicy_some {p : Params} {policy : Policy} (h : openPolicy p = some policy) :
    p[0].toNat ≤ 7 ∧ p[1] ≠ 0#8 ∧ p[1].toNat ≤ 15 ∧ p[3].toNat ≤ 15 := by
  unfold openPolicy at h
  split at h
  · cases h
  · next ok =>
    simp only [not_or, Nat.not_lt] at ok
    exact ok

/-- A zone mask byte of 1 to 15 names a zone. -/
theorem zoneMask_ne_empty {b : Byte} (some_ : b ≠ 0#8) (low : b.toNat ≤ 15) : (b.setWidth 4 : ZoneSet) ≠ 0#4 := by
  intro h
  apply some_
  apply BitVec.eq_of_toNat_eq
  have := congrArg BitVec.toNat h
  simp only [BitVec.toNat_setWidth, BitVec.toNat_ofNat] at this ⊢
  omega

/-- The record of an accepted ANN_OPEN is in its ranges (R17, R18). -/
theorem Slot.opened_ranged {p : Params} {policy : Policy} (h : openPolicy p = some policy) (g : BitVec 4) :
    (Slot.opened g policy p).Ranged := by
  obtain ⟨priority, some_, low, repeats⟩ := openPolicy_some h
  exact { Slot.free_ranged g with
    priority := priority, repeatCount := repeats
    repeatGap := Nat.le_of_lt_succ p[4].isLt, deadlineSetting := Nat.le_of_lt_succ p[5].isLt
    zoneMask := fun _ => zoneMask_ne_empty some_ low
    stop := by simp [Slot.opened, Slot.free] }

theorem State.lowestFree_free {s : State} {i : SlotId} (h : s.lowestFree = some i) : s.slots[i].state = .free := by
  simpa using List.find?_some h

theorem annOpenBody_keeps : Body.Keeps annOpenBody := by
  intro p s
  unfold annOpenBody
  split
  · exact .refl s
  · next policy ok =>
    split
    · exact .refl s
    · next i found =>
      have free := State.lowestFree_free found
      refine ⟨fun pl ol => ⟨pl.update rfl ?_ (Nat.zero_le _) fun _ => rfl, ol.update rfl ol.1 ?_ fun _ _ => .rfl⟩,
        fun law => law.update rfl (Slot.opened_ranged ok _) rfl rfl rfl⟩
      · rw [(pl.2 i).2 free]; rfl
      · have out := ol.2 i
        rw [free] at out
        exact out

/-- A segment that ANN_APPEND describes is in its ranges (R10, R20). -/
theorem segmentOfParams_inRange {p : Params} {g : Segment} (h : segmentOfParams p = some g) : g.inRange = true := by
  simp only [segmentOfParams] at h
  split at h
  · split at h
    · cases h
    · next clip =>
      split at h
      · next trim => obtain rfl := Option.some.inj h; simp [Segment.inRange, trim]; omega
      · split at h
        · obtain rfl := Option.some.inj h; simp [Segment.inRange]; omega
        · cases h
  · split at h
    · split at h
      · cases h
      · obtain rfl := Option.some.inj h; simp [Segment.inRange]; omega
    · split at h
      · obtain rfl := Option.some.inj h; rfl
      · cases h

/-- A record with one more segment, where the list had room, keeps its ranges (R10, R21). -/
theorem Slot.Ranged.append {a : Slot} (r : a.Ranged) {g : Segment} (ok : g.inRange = true)
    (room : a.segments.length < 32) : ({ a with segments := a.segments ++ [g] } : Slot).Ranged :=
  { r with
    length := by simpa using room
    segments := by
      intro x hx
      rcases List.mem_append.mp hx with old | new
      · exact r.segments x old
      · rw [List.mem_singleton.mp new]; exact ok }

theorem annAppendBody_keeps : Body.Keeps annAppendBody := by
  intro p s
  unfold annAppendBody
  split
  · exact .refl s
  · next i _ =>
    simp only
    split
    · exact .refl s
    · next building =>
      split
      · exact .refl s
      · next g ok =>
        split
        · exact .refl s
        · next room =>
          split
          · exact .refl s
          · next free =>
            rw [Nat.not_le] at room
            rw [not_not] at building
            refine ⟨fun pl ol => ⟨pl.update rfl ?_ ?_ ?_, ol.update rfl ol.1 (ol.2 i) fun _ _ => .rfl⟩,
              fun law => law.update rfl (((s.rangeLaw_iff.mp law).2.2.1 i).append (segmentOfParams_inRange ok) room)
                rfl rfl rfl⟩
            · simp only [List.length_append, List.length_singleton]; omega
            · simpa using room
            · exact fun free => absurd (building.symm.trans free) (by decide)

/-- A deadline armed from a setting of one byte is in its range (R8). -/
theorem armedDeadline_le {setting : Nat} (h : setting ≤ 255) : ∀ n ∈ armedDeadline setting, n ≤ 25500 := by
  unfold armedDeadline
  split <;> simp
  omega

theorem annSubmitBody_keeps : Body.Keeps annSubmitBody := by
  intro p s
  unfold annSubmitBody
  split
  · exact .refl s
  · next i _ =>
    simp only
    split
    · exact .refl s
    · next building =>
      rw [not_not] at building
      split
      · exact .refl s
      · split
        · exact .refl s
        · split
          · exact .refl s
          · split
            · exact .refl s
            · refine .requestPass ⟨fun pl ol => ?_, fun law => ?_⟩
              · have fresh : i ∉ s.order := by rw [ol.2 i, building]; decide
                refine ⟨pl.update rfl rfl (pl.2 i).1 nofun, ol.update rfl ?_ ?_ fun j h => ?_⟩
                · exact ol.1.append (List.nodup_singleton i) (by simpa using fresh)
                · simp [AnnState.scheduled]
                · simp [h]
              · have r := (s.rangeLaw_iff.mp law).2.2.1 i
                have queued := r.withState .queued (by rw [building]; decide) (by rw [building]; decide) (by decide)
                exact law.update rfl { queued with deadline := armedDeadline_le r.deadlineSetting } rfl rfl rfl

theorem cancelStopping_quiet {s : State} {i : SlotId} (stopping : s.slots[i].state = .stopping) :
    s.Quiet (cancelStopping s i).1 := by
  unfold cancelStopping
  split
  · exact .setSlot (.refl s) (.of_eq rfl rfl) fun r => { r with stop := iff_of_true stopping rfl }
  · exact .refl s

theorem annCancelBody_keeps : Body.Keeps annCancelBody := by
  intro p s
  unfold annCancelBody
  split
  · exact .refl s
  · next i _ =>
    split
    · exact .refl s
    · exact s.freeSlot_keeps i _
    · exact (s.freeSlot_keeps i _).requestPass
    · exact (((State.Quiet.refl s).withdrawClaims _).keeps.trans (State.freeSlot_keeps _ i _)).requestPass
    · next playing => exact ((State.Quiet.refl s).enterStopping playing _).keeps.requestPass
    · next stopping => exact (cancelStopping_quiet stopping).keeps

theorem annStatusBody_keeps : Body.Keeps annStatusBody := by
  intro p s
  unfold annStatusBody
  split <;> exact .refl s

/-! ### ZONE_SET -/

theorem State.Quiet.setVolume {s t : State} (h : s.Quiet t) (z : Zone) (v : Nat) : s.Quiet (t.setVolume z v) :=
  h.setStage z _

theorem State.Quiet.setIdleHold {s t : State} (h : s.Quiet t) (z : Zone) (hold : Nat) :
    s.Quiet (t.setIdleHold z hold) := by
  unfold State.setIdleHold
  split
  · exact h
  · exact (h.setStage z _).settleIdle z

/-- An owner that loses its last zone is freed or requeued, or its fade ends (R53). -/
theorem State.ownerLosesZone_keeps (s : State) (i : SlotId) (z : Zone) : s.KeepsTables (s.ownerLosesZone i z) := by
  have lost : s.Quiet ((s.setZone z { s.zones[z] with owner := none }).setSlot i
      { s.slots[i] with effZones := s.slots[i].effZones &&& ~~~ zoneBit z }) :=
    ((State.Quiet.refl s).setZone z _).setSlot (.of_eq rfl rfl) fun r => { r with }
  simp only [State.ownerLosesZone]
  generalize (s.setZone z { s.zones[z] with owner := none }).setSlot i
      { s.slots[i] with effZones := s.slots[i].effZones &&& ~~~ zoneBit z } = t at lost ⊢
  have requeued (playing : t.slots[i].state = .playing) (a : RequeueAction) :
      s.KeepsTables ((t.giveUp i).requeue i a 0xFF#8) := by
    have gave := lost.giveUp i
    have was : t.slots[i].state.scheduled = true := by rw [playing]; rfl
    exact gave.keeps.trans (State.requeue_quiet (((State.Quiet.refl t).giveUp i).scheduled was) a _).keeps
  split
  · exact lost.keeps
  · split
    · next playing =>
      split
      · exact (lost.giveUp i).keeps.trans (State.freeSlot_keeps _ i _)
      · exact requeued playing _
      · exact requeued playing _
    · next stopping => exact lost.keeps.trans (State.endFade_keeps (by rw [stopping]; rfl))
    all_goals exact lost.keeps

theorem State.disableInScheduler_keeps (s : State) (z : Zone) : s.KeepsTables (s.disableInScheduler z) := by
  have owner (t : State) (h : s.Quiet t) : s.KeepsTables
      (match t.zones[z].owner with
       | some h => t.ownerLosesZone (handleSlot h) z
       | none => t) := by
    split
    · exact h.keeps.trans (State.ownerLosesZone_keeps _ _ _)
    · exact h.keeps
  unfold State.disableInScheduler
  simp only
  apply owner
  split
  · exact (State.Quiet.refl s).claimLoss _
  · exact .refl s

theorem State.setEnable_keeps (s : State) (z : Zone) (enable : Bool) : s.KeepsTables (s.setEnable z enable) := by
  unfold State.setEnable
  split
  · exact .refl s
  · split
    · exact (((State.Quiet.refl s).setStage z _).requestPass).keeps
    · have recorded := ((State.Quiet.refl s).setStage z { s.stages[z] with enabled := false }).keeps
      have scheduled := recorded.trans (State.disableInScheduler_keeps _ z)
      exact (scheduled.trans ((State.Quiet.refl _).setStage z _).keeps).requestPass

theorem zoneSetBody_keeps : Body.Keeps zoneSetBody := by
  intro p s
  unfold zoneSetBody
  split
  · split
    · exact .refl s
    · exact (((State.Quiet.refl s).setVolume _ _).setIdleHold _ _).keeps.trans (State.setEnable_keeps _ _ _)
  · exact .refl s

/-! ### The commands of directory and port, and SOFT_RESET -/

theorem dirLoadBody_keeps : Body.Keeps dirLoadBody := by
  intro p s
  unfold dirLoadBody
  split
  · exact .refl s
  · split
    · exact .refl s
    · split
      · exact .refl s
      · exact ((State.Quiet.refl s).setDir _).keeps

theorem flashConfigBody_keeps : Body.Keeps flashConfigBody := by
  intro p s
  unfold flashConfigBody
  split
  · exact .refl s
  · split
    · exact .refl s
    · exact ((State.Quiet.refl s).setPort _).keeps

theorem flashClaimBody_keeps : Body.Keeps flashClaimBody := by
  intro p s
  unfold flashClaimBody
  split
  · exact .refl s
  · split
    · exact .refl s
    · split
      · exact .refl s
      · exact ((State.Quiet.refl s).setPort _).keeps

theorem flashReleaseBody_keeps : Body.Keeps flashReleaseBody := by
  intro p s
  unfold flashReleaseBody
  split
  · exact .refl s
  · exact ((State.Quiet.refl s).setPort _).keeps
  · split <;> exact ((State.Quiet.refl s).setPort _).keeps

theorem Engine.unbind_ranged (e : Engine) : e.unbind.Ranged := Engine.idle_ranged _

/-- Every engine unbound: all stand in the range of an unbound one (R84). -/
theorem State.Quiet.unbindAll {s t : State} (h : s.Quiet t) (before : Vector Engine 4) :
    s.Quiet { t with engines := Vector.ofFn fun e : EngineId => before[e].unbind } := by
  refine h.trans ⟨rfl, rfl, fun _ => .refl _, fun law => ?_⟩
  obtain ⟨clock, folded, slots, -⟩ := t.rangeLaw_iff.mp law
  exact (State.rangeLaw_iff _).mpr ⟨clock, folded, slots, fun e => by simpa using Engine.unbind_ranged _⟩

theorem State.softFree_keeps (s : State) : s.KeepsTables s.softFree := by
  have freed : s.KeepsTables (allSlots.foldl State.freeSlotInReset s) :=
    List.foldlRecOn _ _ (.refl s) fun t h i _ => h.trans (t.freeSlotInReset_keeps i)
  simp only [State.softFree]
  generalize allSlots.foldl State.freeSlotInReset s = t at freed ⊢
  exact freed.trans ((State.Quiet.refl t).unbindAll s.engines).keeps

theorem softResetBody_keeps : Body.Keeps softResetBody := by
  intro p s
  have freed := s.softFree_keeps
  simp only [softResetBody, State.softReset]
  generalize s.softFree = t at freed ⊢
  exact freed.trans (State.Quiet.keeps (.of_frame rfl rfl rfl rfl rfl rfl))

/-! ### The mailbox and the host's bytes -/

/-- A mailbox whose count of frames is in its range (log 4). -/
theorem State.Quiet.setMailbox {s t : State} (h : s.Quiet t) {x : Mailbox} (folded : x.foldedEnd ≤ 2) :
    s.Quiet (t.setMailbox x) := by
  refine h.trans ⟨rfl, rfl, fun _ => .refl _, fun law => ?_⟩
  obtain ⟨clock, -, rest⟩ := t.rangeLaw_iff.mp law
  exact (State.rangeLaw_iff _).mpr ⟨clock, folded, rest⟩

theorem State.cmdWrite_keeps {body : Body} (keeps : Body.Keeps body) (s : State) (code : Byte) :
    s.KeepsTables (s.cmdWrite code body) := by
  unfold State.cmdWrite
  split
  · exact State.Quiet.keeps (.of_frame rfl rfl rfl rfl rfl rfl)
  · have latched : s.Quiet (s.latchCommand code) := (State.Quiet.refl s).setMailbox (Nat.zero_le 2)
    have done := latched.keeps.trans (keeps (s.latchCommand code).mailbox.latched (s.latchCommand code))
    simp only
    split
    · exact done.trans ((State.Quiet.of_frame rfl rfl rfl rfl rfl rfl).setMailbox (Nat.le_refl 2)).keeps
    · exact done

/-- A data byte of the host keeps the laws where its register's owning block does (R172). -/
theorem State.hostWrite_keeps {s : State} {a : RegAddr} {act : State → State} (h : s.KeepsTables (act s)) :
    s.KeepsTables (s.hostWrite a act) := by
  rcases s.hostWrite_cases a act with eq | ⟨-, eq⟩ | ⟨-, -, eq⟩ <;> rw [eq]
  · exact .refl s
  · exact h.trans (State.Quiet.keeps (.of_frame rfl rfl rfl rfl rfl rfl))
  · exact State.Quiet.keeps (.of_frame rfl rfl rfl rfl rfl rfl)

theorem State.hostCommand_keeps {body : Body} (keeps : Body.Keeps body) (s : State) (code : Byte) :
    s.KeepsTables (s.hostCommand code body) := State.hostWrite_keeps (State.cmdWrite_keeps keeps s code)

theorem badCommandBody_keeps : Body.Keeps badCommandBody := fun _ s => .refl s

/-- Every command of the table keeps the laws (9.4). -/
theorem commandTable_keeps : ∀ row ∈ commandTable, Body.Keeps row.2 := by
  simp only [commandTable, List.forall_mem_cons]
  exact ⟨annOpenBody_keeps, annAppendBody_keeps, annSubmitBody_keeps, annCancelBody_keeps, annStatusBody_keeps,
    zoneSetBody_keeps, dirLoadBody_keeps, flashConfigBody_keeps, flashClaimBody_keeps, flashReleaseBody_keeps,
    softResetBody_keeps, nofun⟩

theorem bodyOfCode_keeps (code : Byte) : Body.Keeps (bodyOfCode code) := by
  unfold bodyOfCode
  cases found : commandTable.lookup code with
  | none => exact badCommandBody_keeps
  | some body =>
    obtain ⟨before, after, eq, -⟩ := List.lookup_eq_some_iff.mp found
    exact commandTable_keeps (code, body) (by simp [eq])

theorem State.writeRegister_keeps (s : State) (a : RegAddr) (v : Byte) : s.KeepsTables (s.writeRegister a v) := by
  unfold State.writeRegister
  split
  · exact State.Quiet.keeps (.of_frame rfl rfl rfl rfl rfl rfl)
  · split
    · exact State.cmdWrite_keeps (bodyOfCode_keeps v) s v
    · repeat' split
      all_goals exact State.Quiet.keeps (.of_frame rfl rfl rfl rfl rfl rfl)

end Sys2Proof.Machine

/-! ## The laws of pool, list and ranges under the part's own events, and under every step -/

namespace Sys2Proof.Machine

/-! ### The scheduling pass -/

/-- What a pass does to the announcements: quiet, and every candidate is still one (R35 to R40). -/
structure State.InPass (s t : State) : Prop where
  quiet : s.Quiet t
  candidate : ∀ i : SlotId, s.slots[i].state.candidate = true → t.slots[i].state.candidate = true

theorem State.InPass.refl (s : State) : s.InPass s := ⟨.refl s, fun _ => id⟩

theorem State.InPass.trans {s t u : State} (h : s.InPass t) (k : t.InPass u) : s.InPass u :=
  ⟨h.quiet.trans k.quiet, fun i => k.candidate i ∘ h.candidate i⟩

/-- A quiet step that changes one slot, where a candidate stays one. -/
theorem State.Quiet.inPass {s t : State} (h : s.Quiet t) {i : SlotId} {x : Slot} (slots : t.slots = s.slots.set i x)
    (candidate : s.slots[i].state.candidate = true → x.state.candidate = true) : s.InPass t := by
  refine ⟨h, fun j was => ?_⟩
  rw [slots]
  by_cases e : j = i
  · subst e; simpa using candidate was
  · exact (s.setSlot_get_other i j x e).symm ▸ was

/-- A quiet step that changes no slot. -/
theorem State.Quiet.inPass_of_slots {s t : State} (h : s.Quiet t) (slots : t.slots = s.slots) : s.InPass t :=
  ⟨h, fun _ was => slots ▸ was⟩

theorem State.InPass.claimLoss {s t : State} (h : s.InPass t) (i : SlotId) : s.InPass (t.claimLoss i) := by
  have withdrawn : t.InPass (t.withdrawClaims (t.handleAt i)) := by
    refine ((State.Quiet.refl t).withdrawClaims _).inPass_of_slots ?_
    obtain ⟨zones, stages, eq, -⟩ := t.withdrawClaims_eq (t.handleAt i)
    rw [eq]
  refine (h.trans withdrawn).trans ?_
  simp only [State.claimLoss]
  generalize t.withdrawClaims (t.handleAt i) = u
  refine State.Quiet.inPass (.setSlot (.refl u) (Slot.loseClaims_keeps _).1 (Slot.loseClaims_keeps _).2) rfl
    fun was => ?_
  unfold Slot.loseClaims
  split
  · rfl
  · exact was

theorem State.InPass.loseIfGranted {s t : State} (h : s.InPass t) (i : SlotId) : s.InPass (t.loseIfGranted i) := by
  unfold State.loseIfGranted
  split
  · exact h.claimLoss i
  · exact h

theorem State.InPass.displace {s t : State} (h : s.InPass t) (i : SlotId) (zs : ZoneSet) (j : SlotId) :
    s.InPass (t.displace i zs j) := by
  unfold State.displace
  split
  · exact h.claimLoss j
  · exact h

/-- A preempted owner was PLAYING, and no candidate (R38). -/
theorem State.InPass.preemptOwner {s t : State} (h : s.InPass t) (a : Handle) (z : Zone) :
    s.InPass (t.preemptOwner a z) := by
  unfold State.preemptOwner
  split
  · exact h
  · split
    · next playing =>
      refine h.trans (((State.Quiet.refl t).enterStopping playing _).inPass (t.enterStopping_slots _ _) fun was => ?_)
      rw [playing] at was
      cases was
    · exact h

/-- Claiming zones touches no announcement (R37). -/
theorem Pass.claimZone_inPass (p : Pass) (h : Handle) (z : Zone) : p.state.InPass (p.claimZone h z).state := by
  unfold Pass.claimZone
  split
  · exact .refl _
  · exact (((State.Quiet.refl _).setZone z _).setStage z _).inPass_of_slots rfl

/-- A candidate that is granted is one still (R37). -/
theorem Pass.grant_inPass {p : Pass} {i : SlotId} (was : p.state.slots[i].state.candidate = true) (zs : ZoneSet) :
    p.state.InPass (p.grant i zs).state := by
  have one := (AnnState.candidate_iff _).mp was
  have live : p.state.slots[i].state ≠ .free := by rcases one with h | h <;> rw [h] <;> decide
  have going : p.state.slots[i].state ≠ .stopping := by rcases one with h | h <;> rw [h] <;> decide
  have scheduled : p.state.slots[i].state.scheduled = true := by rcases one with h | h <;> rw [h] <;> rfl
  have granted : p.state.InPass (p.state.setSlot i { p.state.slots[i] with state := .granted, effZones := zs }) := by
    refine State.Quiet.inPass (.setSlot (.refl _) (.of_scheduled rfl scheduled rfl) fun r => ?_) rfl fun _ => rfl
    exact { r.withState .granted live going (by decide) with }
  simp only [Pass.grant]
  refine List.foldlRecOn _ _ (List.foldlRecOn _ _ ?_ fun t ht z _ => ht.preemptOwner _ z) fun t ht j _ =>
    ht.displace i zs j
  exact List.foldlRecOn (motive := fun q : Pass => p.state.InPass q.state) _ _ granted fun q hq z _ =>
    hq.trans (q.claimZone_inPass _ z)

/-- A visit to a candidate (R35). -/
theorem Pass.visit_inPass {p : Pass} {i : SlotId} (was : p.state.slots[i].state.candidate = true) :
    p.state.InPass (p.visit i).state := by
  simp only [Pass.visit]
  split
  · exact (State.InPass.refl _).loseIfGranted i
  · split
    · exact Pass.grant_inPass was _
    · exact (State.InPass.refl _).loseIfGranted i

/-- Every announcement in the candidate list is a candidate (R35). -/
theorem State.candidate_of_mem {s : State} {i : SlotId} (h : i ∈ s.candidates) :
    s.slots[i].state.candidate = true := by
  simp only [State.candidates, List.mem_flatMap, List.mem_filter, Bool.and_eq_true] at h
  obtain ⟨_, _, _, candidate, _⟩ := h
  exact candidate

theorem State.takePass_quiet (s : State) : s.Quiet s.takePass := by
  unfold State.takePass
  split
  · simp only
    refine .offerFrom (List.foldlRecOn _ _ ?_ fun t ht i _ => ht.startCheck i) _
    refine State.InPass.quiet (List.foldlRecOn (motive := fun p : Pass => s.InPass p.state) _ _ ?_ ?_)
    · exact State.Quiet.inPass_of_slots (.of_frame rfl rfl rfl rfl rfl rfl) rfl
    · exact fun p hp i hi => hp.trans (Pass.visit_inPass (hp.candidate i (State.candidate_of_mem hi)))
  · exact .refl s

/-! ### Starts, expiries, fade ends and completions -/

/-- A bind changes fault marks alone in the announcement's record (R57). -/
theorem bindEngine_slot (d : Directory) (e : Engine) (a : Slot) (h : Handle) :
    ∃ l, (bindEngine d e a h).slot = { a with segments := l } := by
  obtain ⟨r, eq⟩ := Bound.considerRequest_frame (Bound.walkFrom
    { eng := e.bound h a.playPos, slot := { a with segments := a.segments.map (Segment.withFault false) } }
    a.playPos.seg) d
  exact ⟨_, congrArg Bound.slot eq⟩

/-- A GRANTED announcement starts PLAYING on an engine that stands at its play position (R42). -/
theorem State.startOn_quiet {s : State} {i : SlotId} (granted : s.slots[i].state = .granted) (e : EngineId) :
    s.Quiet (s.startOn i e) := by
  obtain ⟨place, ranged⟩ := bindEngine_keeps s.dir s.engines[e] s.slots[i] (s.handleAt i)
  obtain ⟨l, slot⟩ := bindEngine_slot s.dir s.engines[e] s.slots[i] (s.handleAt i)
  simp only [State.startOn]
  generalize bindEngine s.dir s.engines[e] s.slots[i] (s.handleAt i) = b at place ranged slot ⊢
  have state : b.slot.state = .granted := by rw [slot]; exact granted
  have bound : s.Quiet ((s.setEngine e b.eng).setSlot i
      { b.slot with state := .playing, engine := some e, deadline := none, resume := none, startDue := false }) := by
    refine .setSlot (.setEngine (.refl s) fun law => (ranged ((s.rangeLaw_iff.mp law).2.2.1 i)).2) ?_ fun r => ?_
    · exact place.trans (.of_scheduled rfl (by rw [state]; rfl) rfl)
    · exact { (ranged r).1.withState .playing (by rw [state]; decide) (by rw [state]; decide) (by decide) with
        deadline := by simp, resume := by simp }
  exact .offer (List.foldlRecOn _ _ bound fun t ht z _ => (ht.setZone z _).setStage z _) _

theorem State.takeStart_quiet (s : State) (i : SlotId) : s.Quiet (s.takeStart i) := by
  have dropped : s.Quiet (s.setSlot i { s.slots[i] with startDue := false }) :=
    (State.Quiet.refl s).setSlot (.of_eq rfl rfl) fun r => r.withDue false
  unfold State.takeStart
  split
  · simp only
    split
    · next ready =>
      have granted : s.slots[i].state = .granted := by
        simp only [State.readyToStart, Bool.and_eq_true, beq_iff_eq] at ready
        exact ready.1
      split
      · exact State.startOn_quiet granted _
      · exact dropped
    · exact dropped
  · exact .refl s

theorem State.takeExpiry_keeps (s : State) (i : SlotId) : s.KeepsTables (s.takeExpiry i) := by
  unfold State.takeExpiry
  split
  · exact (((State.Quiet.refl s).withdrawClaims _).keeps.trans (State.freeSlot_keeps _ i _)).requestPass
  · exact .refl s

theorem State.takeFadeEnd_keeps (s : State) (e : EngineId) : s.KeepsTables (s.takeFadeEnd e) := by
  unfold State.takeFadeEnd
  split
  · exact .refl s
  · split
    · next stopping => exact State.endFade_keeps (by rw [stopping.1]; rfl)
    · exact State.Quiet.keeps (.setEngine_of_play (.refl s) rfl)

theorem State.takeCompletion_keeps (s : State) (e : EngineId) : s.KeepsTables (s.takeCompletion e) := by
  unfold State.takeCompletion
  split
  · exact .refl s
  · split
    · exact (((State.Quiet.refl s).giveUp _).keeps.trans (State.freeSlot_keeps _ _ _)).requestPass
    · exact State.Quiet.keeps (.setEngine_of_play (.refl s) rfl)

/-! ### Zone stages and ticks -/

theorem State.takeIdleExpiry_quiet (s : State) (z : Zone) : s.Quiet (s.takeIdleExpiry z) := by
  unfold State.takeIdleExpiry
  split
  · exact (State.Quiet.refl s).setStage z _
  · exact .refl s

theorem State.takeZoneFadeEnd_quiet (s : State) (z : Zone) : s.Quiet (s.takeZoneFadeEnd z) := by
  unfold State.takeZoneFadeEnd
  split
  · exact .refl s
  · next f _ =>
    split
    · exact .refl s
    · have ended := (State.Quiet.refl s).setStage z { s.stages[z] with fade := none }
      simp only
      split
      · exact ended.startCheckZone z
      · unfold State.afterZoneFade
        split
        · exact ended.settleIdle z
        · exact ended.setStage z _
        · exact ended.setStage z _

theorem State.takeBiasReady_quiet (s : State) (z : Zone) : s.Quiet (s.takeBiasReady z) := by
  have ready := ((State.Quiet.refl s).setStage z { s.stages[z] with bias := .ready }).offer (EventRecord.zone z .ready)
  unfold State.takeBiasReady
  split
  · simp only
    split
    · exact ready.startCheckZone z
    · exact ready.settleIdle z
  · exact .refl s

theorem State.takeBiasOff_quiet (s : State) (z : Zone) : s.Quiet (s.takeBiasOff z) := by
  unfold State.takeBiasOff
  split
  · exact ((State.Quiet.refl s).setStage z _).offer _
  · exact .refl s

/-- A tick lowers a deadline (R44). -/
theorem Slot.tick_keeps (a : Slot) : a.SamePlace a.tick ∧ (a.Ranged → a.tick.Ranged) := by
  unfold Slot.tick
  split
  · refine ⟨.of_eq rfl rfl, fun r => { r with deadline := fun n hn => ?_ }⟩
    obtain ⟨m, hm, rfl⟩ := Option.mem_map.mp hn
    exact (Nat.sub_le m 1).trans (r.deadline m hm)
  · exact ⟨.refl a, id⟩

theorem State.takeTick_quiet (s : State) : s.Quiet s.takeTick := by
  unfold State.takeTick
  split
  · exact .refl s
  · refine ⟨rfl, rfl, fun i => ?_, fun law => (State.rangeLaw_iff _).mpr ?_⟩
    · simpa [State.countTick] using s.slots[i].tick_keeps.1
    · obtain ⟨clock, folded, slots, engines⟩ := s.rangeLaw_iff.mp law
      exact ⟨clock, folded, fun i => by simpa [State.countTick] using s.slots[i].tick_keeps.2 (slots i), engines⟩

theorem State.takeSlew_quiet (s : State) : s.Quiet s.takeSlew := by
  unfold State.takeSlew
  split
  · exact .refl s
  · exact ⟨rfl, rfl, fun _ => .refl _, id⟩

/-! ### Directory and port -/

theorem State.Quiet.failLoad {s t : State} (h : s.Quiet t) (r : LoadResult) (count invalid : Nat) :
    s.Quiet (t.failLoad r count invalid) := (h.setDir _).offer _

theorem State.Quiet.takeDirHeader {s t : State} (h : s.Quiet t) (data : List Byte) :
    s.Quiet (t.takeDirHeader data) := by
  simp only [State.takeDirHeader]
  split
  · exact h.failLoad _ _ _
  · split
    · exact h.failLoad _ _ _
    · split
      · exact h.failLoad _ _ _
      · exact h.setDir _

theorem State.Quiet.takeDirEntries {s t : State} (h : s.Quiet t) (p : LoadProgress) (data : List Byte) :
    s.Quiet (t.takeDirEntries p data) := by
  simp only [State.takeDirEntries]
  split
  · exact h.setDir _
  · unfold State.endLoad
    split
    · exact (h.setDir _).offer _
    · exact (h.setDir _).failLoad _ _ _

theorem State.Quiet.takeLoaderData {s t : State} (h : s.Quiet t) (number : BitVec 8) (data : List Byte) :
    s.Quiet (t.takeLoaderData number data) := by
  unfold State.takeLoaderData
  split
  · split
    · exact h
    · split
      · exact h.takeDirHeader data
      · exact h.takeDirEntries _ data
  · exact h

theorem State.takeLoaderArrival_quiet (s : State) (data : List Byte) : s.Quiet (s.takeLoaderArrival data) := by
  unfold State.takeLoaderArrival
  split
  · split
    · split
      · exact ((State.Quiet.refl s).setPort _).takeLoaderData _ _
      · exact .refl s
    · exact .refl s
  · exact .refl s

theorem State.Quiet.arbitrate {s t : State} (h : s.Quiet t) : s.Quiet t.arbitrate := by
  unfold State.arbitrate
  split
  · next mode _ =>
    cases mode with
    | shared => exact (h.setPort _).offer _
    | exclusive => exact ((h.setPort _).setDir _).offer _
  · split
    · unfold State.grantEngine
      split
      · exact (h.setPort _).setEngine_of_play rfl
      · exact h
    · unfold State.grantLoader
      split
      · split
        · split
          · exact h
          · exact (h.setPort _).setDir _
        · exact h
      · exact h

theorem State.takeGrant_quiet (s : State) : s.Quiet s.takeGrant := by
  rcases s.takeGrant_cases with ⟨-, eq⟩ | ⟨-, -, -, eq⟩ | ⟨-, eq⟩ <;> rw [eq]
  · exact (State.Quiet.refl s).arbitrate
  · exact ((State.Quiet.refl s).setPort _).arbitrate
  · exact .refl s

theorem State.Quiet.revoke {s t : State} (h : s.Quiet t) : s.Quiet t.revoke := (h.setPort _).offer _

theorem State.takeHoldExpiry_quiet (s : State) : s.Quiet s.takeHoldExpiry := by
  unfold State.takeHoldExpiry
  split
  · split
    · exact (State.Quiet.refl s).revoke
    · exact (State.Quiet.refl s).setPort _
  · exact .refl s

theorem State.takeByteEnd_quiet (s : State) (received : Byte) : s.Quiet (s.takeByteEnd received) := by
  unfold State.takeByteEnd
  split
  · exact .refl s
  · have taken := (State.Quiet.refl s).setPort { s.port with ptByte := none, received := received }
    have ended : s.Quiet (s.setPort { s.port with ptByte := none, received := received }).completeEnd := by
      unfold State.completeEnd
      split
      · exact taken.revoke
      · exact taken.setPort _
      · exact taken.setPort _
      all_goals exact taken
    unfold State.endWaitingRelease
    split
    · exact ended.trans (.of_frame rfl rfl rfl rfl rfl rfl)
    · exact ended

/-! ### Frames and the engines' own events -/

theorem Engine.fadeDone_play (e : Engine) : e.fadeDone.play = e.play := by
  unfold Engine.fadeDone
  split
  · exact e.withdrawUngranted_play
  · rfl

theorem Engine.endGap_play (e : Engine) : e.endGap.play = e.play := by
  unfold Engine.endGap
  split <;> rfl

theorem State.takeGapEnd_quiet (s : State) (e : EngineId) : s.Quiet (s.takeGapEnd e) := by
  unfold State.takeGapEnd
  split
  · exact (State.Quiet.refl s).setEngine_of_play (Engine.endGap_play _)
  · exact .refl s

theorem State.takeRepeatGapEnd_quiet (s : State) (e : EngineId) : s.Quiet (s.takeRepeatGapEnd e) := by
  unfold State.takeRepeatGapEnd
  split
  · exact (State.Quiet.refl s).setEngine_of_play (Engine.endGap_play _)
  · exact .refl s

/-- An engine and its announcement are stored as a step of theirs leaves them. -/
theorem State.Quiet.setBound {s : State} {e : EngineId} {i : SlotId} {b : Bound}
    (k : Bound.Keeps { eng := s.engines[e], slot := s.slots[i] } b) :
    s.Quiet ((s.setEngine e b.eng).setSlot i b.slot) := by
  refine ⟨rfl, rfl, State.setSlot_place k.place, fun law => ?_⟩
  have ranged := k.ranged ⟨(s.rangeLaw_iff.mp law).2.2.1 i, (s.rangeLaw_iff.mp law).2.2.2 e⟩
  have engine : s.Quiet (s.setEngine e b.eng) := .setEngine (.refl s) fun _ => ranged.2
  have slot : (s.setEngine e b.eng).Quiet ((s.setEngine e b.eng).setSlot i b.slot) :=
    .setSlot (.refl _) k.place fun _ => ranged.1
  exact slot.ranged (engine.ranged law)

theorem State.takeEngineData_quiet (s : State) (e : EngineId) (epoch : BitVec 8) (data : List Byte) :
    s.Quiet (s.takeEngineData e epoch data) := by
  unfold State.takeEngineData
  split
  · exact .refl s
  · split
    · exact .refl s
    · exact .setBound (Bound.takeArrival_keeps _ s.dir data)

theorem State.takeEngineArrival_quiet (s : State) (data : List Byte) : s.Quiet (s.takeEngineArrival data) := by
  unfold State.takeEngineArrival
  split
  · split
    · split
      · exact ((State.Quiet.refl s).setPort _).trans (State.takeEngineData_quiet _ _ _ _)
      · exact .refl s
    · exact .refl s
  · exact .refl s

/-- A frame of the clock keeps both counters in their ranges (R1). -/
theorem FrameClock.advance_ranged (c : FrameClock) : c.advance.Ranged := by
  simp only [FrameClock.advance, FrameClock.Ranged]
  split <;> split <;> omega

/-- The announcements after a frame: each stands as it did, or as a frame of an engine left it. -/
theorem State.slotsAfter_keeps (s : State) (i : SlotId) :
    s.slots[i].SamePlace (slotsAfter s.slots s.engineFrames)[i]
      ∧ (s.RangeLaw → (slotsAfter s.slots s.engineFrames)[i].Ranged) := by
  revert i
  refine List.foldlRecOn (motive := fun v : Vector Slot 16 =>
    ∀ i : SlotId, s.slots[i].SamePlace v[i] ∧ (s.RangeLaw → v[i].Ranged)) allEngines _ ?_ fun v hv e _ i => ?_
  · exact fun i => ⟨.refl _, fun law => (s.rangeLaw_iff.mp law).2.2.1 i⟩
  · unfold storeSlot
    split
    · next j a stored =>
      have written := (s.engineFrame_keeps e).1 (j, a) (by simpa using stored)
      by_cases same : i = j
      · subst same; simpa using written
      · have ne : ¬ (j : Nat) = i := fun q => same (Fin.ext q.symm)
        simpa [ne] using hv i
    · exact hv i

theorem State.takeFrame_quiet (s : State) : s.Quiet s.takeFrame := by
  rw [State.takeFrame_eq]
  refine ⟨rfl, rfl, fun i => (s.slotsAfter_keeps i).1, fun law => (State.rangeLaw_iff _).mpr ?_⟩
  obtain ⟨-, folded, -, -⟩ := s.rangeLaw_iff.mp law
  refine ⟨s.clock.advance_ranged, ?_, fun i => (s.slotsAfter_keeps i).2 law, fun e => ?_⟩
  · exact (Nat.sub_le _ 1).trans folded
  · simpa using (s.engineFrame_keeps e).2 law

/-! ### Every step -/

/-- The reset values meet the laws, whatever stood before (R30, R83, R168). -/
theorem State.KeepsTables.of_reset {s t : State} (slots : t.slots = State.reset.slots) (pool : t.poolFree = 256)
    (order : t.order = []) (engines : t.engines = State.reset.engines) (clock : t.clock = State.reset.clock)
    (folded : t.mailbox.foldedEnd = 0) : s.KeepsTables t := by
  have slot (i : SlotId) : t.slots[i] = Slot.free 0#4 := by simp [slots, State.reset]
  have engine (e : EngineId) : t.engines[e] = Engine.idle 0#8 := by simp [engines, State.reset]
  refine ⟨fun _ _ => ⟨⟨?_, fun i => ?_⟩, ?_, fun i => ?_⟩,
    fun _ => (State.rangeLaw_iff _).mpr ⟨?_, ?_, fun i => ?_, fun e => ?_⟩⟩
  · simp [slot, pool, Slot.free]
  · simp [slot, Slot.free]
  · simp [order]
  · simp [order, slot, Slot.free, AnnState.scheduled]
  · rw [clock]; exact ⟨Nat.zero_le _, Nat.zero_le _⟩
  · omega
  · rw [slot]; exact Slot.free_ranged _
  · rw [engine]; exact Engine.idle_ranged _

theorem State.KeepsTables.whenRunning {s : State} {act : State → State} (h : s.KeepsTables (act s)) :
    s.KeepsTables (s.whenRunning act) := by
  unfold State.whenRunning
  split
  · exact .refl s
  · exact h

/-- An event of the part's own that moves nothing between pool, list and slots. -/
theorem State.Quiet.whenRunning {s : State} {act : State → State} (h : s.Quiet (act s)) :
    s.KeepsTables (s.whenRunning act) := .whenRunning h.keeps

theorem State.fallHcs_quiet (s : State) : s.Quiet s.fallHcs := by
  unfold State.fallHcs
  split
  · exact .refl s
  · split <;> exact .of_frame rfl rfl rfl rfl rfl rfl

theorem State.takeAddress_quiet (s : State) (b : Byte) : s.Quiet (s.takeAddress b) := by
  unfold State.takeAddress
  split
  · split
    · exact .of_frame rfl rfl rfl rfl rfl rfl
    · exact .refl s
  · exact .refl s

/-- A write of the host to the event queue or the port (R150, R151, R161, R166, R167). -/
theorem State.hostWrite_quiet {s : State} {a : RegAddr} {act : State → State} (h : s.Quiet (act s)) :
    s.KeepsTables (s.hostWrite a act) := State.hostWrite_keeps h.keeps

/-- Every command keeps the laws of pool, list and ranges. -/
theorem exec_keeps (c : Instr) (s : State) : ∃ t, exec c s = .next t ∧ s.KeepsTables t := by
  cases c with
  | annOpen => exact ⟨_, rfl, State.hostCommand_keeps annOpenBody_keeps s _⟩
  | annAppend => exact ⟨_, rfl, State.hostCommand_keeps annAppendBody_keeps s _⟩
  | annSubmit => exact ⟨_, rfl, State.hostCommand_keeps annSubmitBody_keeps s _⟩
  | annCancel => exact ⟨_, rfl, State.hostCommand_keeps annCancelBody_keeps s _⟩
  | annStatus => exact ⟨_, rfl, State.hostCommand_keeps annStatusBody_keeps s _⟩
  | zoneSet => exact ⟨_, rfl, State.hostCommand_keeps zoneSetBody_keeps s _⟩
  | dirLoad => exact ⟨_, rfl, State.hostCommand_keeps dirLoadBody_keeps s _⟩
  | flashConfig => exact ⟨_, rfl, State.hostCommand_keeps flashConfigBody_keeps s _⟩
  | flashClaim => exact ⟨_, rfl, State.hostCommand_keeps flashClaimBody_keeps s _⟩
  | flashRelease => exact ⟨_, rfl, State.hostCommand_keeps flashReleaseBody_keeps s _⟩
  | softReset => exact ⟨_, rfl, State.hostCommand_keeps softResetBody_keeps s _⟩
  | badCommand code =>
    refine ⟨_, rfl, ?_⟩
    split
    · exact .refl s
    · exact State.hostCommand_keeps badCommandBody_keeps s _
  | cmdWriteDiscarded code =>
    refine ⟨_, rfl, ?_⟩
    split
    · exact State.hostWrite_quiet (.of_frame rfl rfl rfl rfl rfl rfl)
    · exact .refl s
  | registerWrite a v => exact ⟨_, rfl, State.hostWrite_keeps (s.writeRegister_keeps a v)⟩
  | evpop v => exact ⟨_, rfl, State.hostWrite_quiet (.of_frame rfl rfl rfl rfl rfl rfl)⟩
  | evmskWrite reg v => exact ⟨_, rfl, State.hostWrite_quiet (.of_frame rfl rfl rfl rfl rfl rfl)⟩
  | irqcWrite v => exact ⟨_, rfl, State.hostWrite_quiet (.of_frame rfl rfl rfl rfl rfl rfl)⟩
  | ptctlWrite v => exact ⟨_, rfl, State.hostWrite_quiet (.of_frame rfl rfl rfl rfl rfl rfl)⟩
  | ptdatWrite v => exact ⟨_, rfl, State.hostWrite_quiet (.of_frame rfl rfl rfl rfl rfl rfl)⟩
  | ptByteEnd received => exact ⟨_, rfl, State.Quiet.whenRunning (s.takeByteEnd_quiet received)⟩
  | powerOnReset => exact ⟨_, rfl, .of_reset rfl rfl rfl rfl rfl rfl⟩
  | pinReset => exact ⟨_, rfl, .of_reset rfl rfl rfl rfl rfl rfl⟩
  | frame => exact ⟨_, rfl, s.takeFrame_quiet.whenRunning⟩
  | tick => exact ⟨_, rfl, s.takeTick_quiet.whenRunning⟩
  | volumeSlewStep => exact ⟨_, rfl, s.takeSlew_quiet.whenRunning⟩
  | deadlineExpiry i => exact ⟨_, rfl, .whenRunning (s.takeExpiry_keeps i)⟩
  | idleTimerExpiry z => exact ⟨_, rfl, State.Quiet.whenRunning (s.takeIdleExpiry_quiet z)⟩
  | holdExpiry => exact ⟨_, rfl, s.takeHoldExpiry_quiet.whenRunning⟩
  | schedulingPass => exact ⟨_, rfl, s.takePass_quiet.whenRunning⟩
  | start i => exact ⟨_, rfl, State.Quiet.whenRunning (s.takeStart_quiet i)⟩
  | engineFadeDone e =>
    exact ⟨_, rfl, State.Quiet.whenRunning (.setEngine_of_play (.refl s) (Engine.fadeDone_play _))⟩
  | fadeEnd e => exact ⟨_, rfl, .whenRunning (s.takeFadeEnd_keeps e)⟩
  | completion e => exact ⟨_, rfl, .whenRunning (s.takeCompletion_keeps e)⟩
  | zoneFadeEnd z => exact ⟨_, rfl, State.Quiet.whenRunning (s.takeZoneFadeEnd_quiet z)⟩
  | biasReady z => exact ⟨_, rfl, State.Quiet.whenRunning (s.takeBiasReady_quiet z)⟩
  | biasOff z => exact ⟨_, rfl, State.Quiet.whenRunning (s.takeBiasOff_quiet z)⟩
  | gapEnd e => exact ⟨_, rfl, State.Quiet.whenRunning (s.takeGapEnd_quiet e)⟩
  | repeatGapEnd e => exact ⟨_, rfl, State.Quiet.whenRunning (s.takeRepeatGapEnd_quiet e)⟩
  | portGrant => exact ⟨_, rfl, s.takeGrant_quiet.whenRunning⟩
  | engineBurstArrival data => exact ⟨_, rfl, State.Quiet.whenRunning (s.takeEngineArrival_quiet data)⟩
  | loaderBurstArrival data => exact ⟨_, rfl, State.Quiet.whenRunning (s.takeLoaderArrival_quiet data)⟩
  | resetnHeldLow => exact ⟨_, rfl, .of_reset rfl rfl rfl rfl rfl rfl⟩
  | hcsFall => exact ⟨_, rfl, s.fallHcs_quiet.keeps⟩
  | addressByte b => exact ⟨_, rfl, State.Quiet.whenRunning (s.takeAddress_quiet b)⟩
  | hcsRise => exact ⟨_, rfl, State.Quiet.keeps (.of_frame rfl rfl rfl rfl rfl rfl)⟩

/-- Taking the front command leaves the records the laws speak of; the command then keeps them. -/
theorem step_keeps {s t : State} (h : step s = .next t) : s.KeepsTables t := by
  unfold step at h
  split at h
  · obtain rfl := Host.Outcome.next.inj h
    exact .refl s
  · next c rest _ =>
    obtain ⟨u, eq, keeps⟩ := exec_keeps c (s.withPending rest)
    obtain rfl := Host.Outcome.next.inj (eq.symm.trans h)
    have taken : s.Quiet (s.withPending rest) := .of_frame rfl rfl rfl rfl rfl rfl
    exact taken.keeps.trans keeps

/-- Settles O53: most rows are quiet, so that no record changes its place; an opening, an append, a submission and a
freeing update the sum and the list by one slot; a reset meets the laws outright. -/
theorem everyStepKeepsTableLaws : Obligations.EveryStepKeepsTableLaws :=
  fun _ _ h => ⟨(step_keeps h).tables, (step_keeps h).ranged⟩

end Sys2Proof.Machine

/-! ## What the fetch side and the play side leave of an announcement's record -/

namespace Sys2Proof.Machine

/-- An announcement's record without what the fetch side and the play side write of it. -/
def Slot.standing (a : Slot) : Slot :=
  { a with state := .free, segments := [], playPos := ⟨0, 1⟩, faultCount := 0, underruns := 0, stop := none }

/-- What the fetch side and the play side can do to an announcement's record: a PLAYING one may become STOPPING, and
the fields that are not theirs stand (R6, R7, R12, R75, R78). -/
structure Slot.Played (a b : Slot) : Prop where
  standing : b.standing = a.standing
  state : b.state = a.state ∨ (a.state = .playing ∧ b.state = .stopping)

theorem Slot.Played.refl (a : Slot) : a.Played a := ⟨rfl, .inl rfl⟩

theorem Slot.Played.trans {a b c : Slot} (h : a.Played b) (k : b.Played c) : a.Played c := by
  refine ⟨k.standing.trans h.standing, ?_⟩
  rcases k.state with same | ⟨was, is⟩
  · rw [same]; exact h.state
  · rcases h.state with same | ⟨-, stopping⟩
    · exact .inr ⟨same ▸ was, is⟩
    · exact absurd (was.symm.trans stopping) (by decide)

theorem Slot.Played.generation {a b : Slot} (h : a.Played b) : b.generation = a.generation :=
  (congrArg Slot.generation h.standing :)

theorem Slot.Played.zoneMask {a b : Slot} (h : a.Played b) : b.zoneMask = a.zoneMask :=
  (congrArg Slot.zoneMask h.standing :)

theorem Slot.Played.effZones {a b : Slot} (h : a.Played b) : b.effZones = a.effZones :=
  (congrArg Slot.effZones h.standing :)

/-- The fetch side changes fault marks alone (R64). -/
theorem Bound.walkFrom_played (b : Bound) (k : Nat) : b.slot.Played (b.walkFrom k).slot := ⟨rfl, .inl rfl⟩

theorem Bound.retryFetch_played (b : Bound) : b.slot.Played b.retryFetch.slot := by
  unfold Bound.retryFetch
  split
  · exact b.walkFrom_played _
  · exact .refl _

theorem Bound.considerRequest_slot (b : Bound) (d : Directory) : (b.considerRequest d).slot = b.slot := by
  obtain ⟨r, eq⟩ := b.considerRequest_frame d
  rw [eq]

theorem Bound.takeHeader_played (b : Bound) (d : Directory) (data : List Byte) :
    b.slot.Played (b.takeHeader d data).slot := by
  unfold Bound.takeHeader
  split <;> exact ⟨rfl, .inl rfl⟩

theorem Bound.takeData_played (b : Bound) (d : Directory) (data : List Byte) :
    b.slot.Played (b.takeData d data).slot := by
  simp only [Bound.takeData]
  split <;> exact ⟨rfl, .inl rfl⟩

/-- The arrival of a burst changes fault marks alone (R63, R66). -/
theorem Bound.takeArrival_played (b : Bound) (d : Directory) (data : List Byte) :
    b.slot.Played (b.takeArrival d data).slot := by
  unfold Bound.takeArrival
  split
  · simp only [Bound.considerRequest_slot]
    split
    · exact Bound.takeHeader_played { b with eng := { b.eng with request := none } } d data
    · exact Bound.takeData_played { b with eng := { b.eng with request := none } } d data
    · exact .refl _
  · exact .refl _

theorem Play.writePosition_played (p : Play) : p.slot.Played p.writePosition.slot := by
  unfold Play.writePosition
  split <;> exact ⟨rfl, .inl rfl⟩

/-- A play side that moved writes its position after its fetch side tried again (R64, R70). -/
theorem Slot.Played.retried {a : Slot} {q : Play} (h : a.Played q.slot) :
    a.Played ({ q with bound := q.bound.retryFetch } : Play).writePosition.slot :=
  (h.trans (Bound.retryFetch_played q.bound)).trans
    (Play.writePosition_played { q with bound := q.bound.retryFetch })

theorem Play.leave_played (p : Play) : p.slot.Played p.leave.slot := by
  have moved (x : Engine) : p.slot.Played (p.withEng x).slot := .refl _
  simp only [Play.leave]
  split
  · exact (moved _).retried
  · split
    · exact (moved _).retried
    · exact moved _

/-- The second fault aborts a PLAYING announcement; no fault changes another state (R6, R75). -/
theorem Play.countFault_played (p : Play) (kind : FaultKind) : p.slot.Played (p.countFault kind).slot := by
  unfold Play.countFault
  split
  · exact .refl _
  · simp only
    split
    · split
      · next playing => exact ⟨rfl, .inr ⟨playing, rfl⟩⟩
      · exact ⟨rfl, .inl rfl⟩
      · exact ⟨rfl, .inl rfl⟩
    · exact ⟨rfl, .inl rfl⟩

theorem Play.stall_played (p : Play) : p.slot.Played p.stall.slot := by
  simp only [Play.stall]
  split <;> exact ⟨rfl, .inl rfl⟩

theorem Play.formatFault_played (p : Play) (clipLength : Nat) : p.slot.Played (p.formatFault clipLength).slot := by
  simp only [Play.formatFault]
  refine .trans ?_ (Play.countFault_played _ _)
  split <;> exact ⟨rfl, .inl rfl⟩

theorem Play.passMark_slot (p : Play) (value : Byte) : (p.passMark value).slot = p.slot := by
  unfold Play.passMark
  split <;> rfl

theorem Play.enterClip_slot (p : Play) : p.enterClip.slot = p.slot := by
  unfold Play.enterClip
  split <;> rfl

theorem Play.clipFrame_played (p : Play) (entry : ClipEntry) (trim : Option Nat) :
    p.slot.Played (p.clipFrame entry trim).play.slot := by
  simp only [Play.clipFrame]
  split
  · exact .refl _
  · split
    · exact .refl _
    · split
      · exact p.stall_played
      · exact .refl _
      · exact .refl _

/-- The play side's way through one frame (R68). -/
theorem playLoop_played (d : Directory) : ∀ (fuel : Nat) (p : Play), p.slot.Played (playLoop d fuel p).1.slot
  | 0, p => .refl _
  | fuel + 1, p => by
    have go (q : Play) (h : p.slot.Played q.slot) : p.slot.Played (playLoop d fuel q).1.slot :=
      h.trans (playLoop_played d fuel q)
    have leave (q : Play) (h : p.slot.Played q.slot) : p.slot.Played (playLoop d fuel q.leave).1.slot :=
      go _ (h.trans q.leave_played)
    unfold playLoop
    split
    · exact .refl _
    · exact .refl _
    · split
      · exact go _ (.refl _)
      · exact .refl _
    · split
      · exact .refl _
      · exact leave _ (by rw [Play.passMark_slot]; exact .refl _)
      · split
        · exact leave _ (.refl _)
        · split <;> exact .refl _
      · next n trim fault _ =>
        have entered : p.slot.Played p.enterClip.slot := by rw [Play.enterClip_slot]; exact .refl _
        simp only
        split
        · have counted : p.slot.Played (p.enterClip.resume.countFault .headerMismatch).slot :=
            entered.trans (Play.countFault_played p.enterClip.resume _)
          split
          · exact counted
          · exact leave _ counted
        · have clip := entered.trans (Play.clipFrame_played p.enterClip (d.entry n) trim)
          split
          · next h => rw [h] at clip; exact clip
          · next h => rw [h] at clip; exact leave _ clip
          · next h =>
            rw [h] at clip
            have counted := clip.trans (Play.formatFault_played _ (d.entry n).length)
            split
            · exact counted
            · exact leave _ counted

/-- One frame of a bound engine (R56). -/
theorem Play.frame_played (d : Directory) (p : Play) : p.slot.Played (p.frame d).1.slot := by
  have run (x : Engine) : p.slot.Played ((p.withEng x).run d).1.slot := playLoop_played d _ (p.withEng x)
  unfold Play.frame
  split
  · exact .refl _
  · split
    · exact run _
    · exact .refl _
  · exact playLoop_played d _ p
  · exact playLoop_played d _ p
  · split
    · exact .refl _
    · split
      · exact .refl _
      · exact run _

/-- Each announcement after a frame: as the frames of the engines can leave it. -/
theorem State.takeFrame_played (s : State) (i : SlotId) : s.slots[i].Played s.takeFrame.slots[i] := by
  rw [State.takeFrame_eq]
  simp only
  revert i
  refine List.foldlRecOn (motive := fun v : Vector Slot 16 => ∀ i : SlotId, s.slots[i].Played v[i]) allEngines _
    (fun i => .refl _) fun v hv e _ i => ?_
  unfold storeSlot
  split
  · next j a stored =>
    rw [Fin.getElem_fin, State.engineFrames_get] at stored
    cases b : s.engines[e].binding with
    | none =>
      rw [State.engineFrame_unbound b] at stored
      cases stored
    | some h =>
      rw [State.engineFrame_eq b] at stored
      obtain ⟨rfl, rfl⟩ := Prod.mk.inj (Option.some.inj stored)
      by_cases same : i = handleSlot h
      · subst same
        simp only [Fin.getElem_fin, Vector.getElem_set_self, Bound.considerRequest_slot]
        exact Play.frame_played s.dir
          { bound := { eng := s.engines[e], slot := s.slots[handleSlot h] }, handle := h, events := [], pass := false }
      · have ne : ¬ (handleSlot h : Nat) = i := fun q => same (Fin.ext q.symm)
        simpa [ne] using hv i
  · exact hv i

end Sys2Proof.Machine

/-! ## The law of zones, and the steps that keep it -/

namespace Sys2Proof.Machine

/-! ### Zone sets and handles -/

/-- The zones of two sets together. -/
theorem inZones_and (a b : ZoneSet) (z : Zone) : inZones (a &&& b) z = (inZones a z && inZones b z) := by
  simp [inZones]

/-- The empty set holds no zone. -/
@[simp] theorem inZones_empty (z : Zone) : inZones 0#4 z = false := by simp [inZones]

/-- A set within another, zone by zone. -/
theorem zoneSet_within_iff {a b : ZoneSet} : a &&& ~~~b = 0#4 ↔ ∀ z : Zone, inZones a z = true → inZones b z = true := by
  revert a b; decide

/-- Two sets without a common zone, zone by zone. -/
theorem zoneSet_disjoint_iff {a b : ZoneSet} : a &&& b = 0#4 ↔ ∀ z : Zone, inZones a z = true → inZones b z = false := by
  revert a b; decide

/-- The zones of a set in order are the zones it holds. -/
theorem mem_zonesOf {zs : ZoneSet} {z : Zone} : z ∈ zonesOf zs ↔ inZones zs z = true := by
  simp [zonesOf, mem_allZones]

theorem zonesOf_nodup (zs : ZoneSet) : (zonesOf zs).Nodup := List.Nodup.filter _ (by decide)

/-- The enabled zones are the zones whose stage is enabled (R33). -/
theorem State.inZones_enabledZones (s : State) (z : Zone) : inZones s.enabledZones z = s.stages[z].enabled := by
  have set_ : ∀ (e : Zone → Bool) (z : Zone),
      inZones (allZones.foldl (fun zs z => if e z then zs ||| zoneBit z else zs) 0#4) z = e z := by
    decide
  exact set_ (fun z => s.stages[z].enabled) z

/-- The handles of two slots differ. -/
theorem State.handleAt_inj {s : State} {i j : SlotId} (h : s.handleAt i = s.handleAt j) : i = j := by
  simpa using congrArg handleSlot h

/-! ### The law without the enables -/

/-- An announcement that claims no zone and owns none (R32): its state is none of the three, and it has no effective
zone. -/
structure Slot.OffAir (a : Slot) : Prop where
  effZones : a.effZones = 0#4
  notGranted : a.state ≠ .granted
  notPlaying : a.state ≠ .playing
  notStopping : a.state ≠ .stopping

/-- The law of zones without the enables. The announcements of `but` may miss claims, as a pass leaves them for a while
(R37). -/
structure State.ClaimLaw (s : State) (but : SlotId → Prop) : Prop where
  claimant : ∀ (z : Zone) (h : Handle), s.zones[z].claimant = some h →
    s.handleAt (handleSlot h) = h ∧ s.slots[handleSlot h].state = .granted
      ∧ inZones s.slots[handleSlot h].effZones z = true
  owner : ∀ (z : Zone) (h : Handle), s.zones[z].owner = some h →
    s.handleAt (handleSlot h) = h
      ∧ (s.slots[handleSlot h].state = .playing ∨ s.slots[handleSlot h].state = .stopping)
      ∧ inZones s.slots[handleSlot h].effZones z = true
  mask : ∀ i : SlotId, s.slots[i].effZones &&& ~~~s.slots[i].zoneMask = 0#4
  onAir : ∀ i : SlotId, s.slots[i].state = .granted ∨ s.slots[i].state = .playing ∨ s.slots[i].state = .stopping ↔
    s.slots[i].effZones ≠ 0#4
  named : ∀ i : SlotId, ¬ but i → ∀ z : Zone, inZones s.slots[i].effZones z = true →
    (s.slots[i].state = .granted ∧ s.zones[z].claimant = some (s.handleAt i))
      ∨ (s.slots[i].state ≠ .granted ∧ s.zones[z].owner = some (s.handleAt i))

/-- No announcement is excepted. -/
abbrev nobody : SlotId → Prop := fun _ => False

/-- The law of zones is the law of claims, and every claimed zone is enabled (R33). -/
theorem State.zoneLaw_iff (s : State) :
    s.ZoneLaw ↔ s.ClaimLaw nobody ∧ ∀ z : Zone, s.zones[z].claimant ≠ none → s.stages[z].enabled = true := by
  constructor
  · rintro ⟨zones, slots⟩
    refine ⟨⟨fun z h eq => ?_, fun z h eq => (zones z).2 h eq, fun i => (slots i).1, fun i => (slots i).2.1,
      fun i _ => (slots i).2.2⟩, fun z some_ => ?_⟩
    · obtain ⟨handle, granted, mem, -⟩ := (zones z).1 h eq
      exact ⟨handle, granted, mem⟩
    · obtain ⟨h, eq⟩ := Option.ne_none_iff_exists'.mp some_
      obtain ⟨-, -, -, enabled⟩ := (zones z).1 h eq
      exact enabled
  · rintro ⟨law, enabled⟩
    refine ⟨fun z => ⟨fun h eq => ?_, fun h eq => law.owner z h eq⟩, fun i => ⟨law.mask i, law.onAir i, law.named i id⟩⟩
    obtain ⟨handle, granted, mem⟩ := law.claimant z h eq
    exact ⟨handle, granted, mem, enabled z (by rw [show s.zones[z].claimant = some h from eq]; nofun)⟩

section ClaimLaw
variable {s : State} {but : SlotId → Prop}

theorem State.ClaimLaw.mono {but' : SlotId → Prop} (law : s.ClaimLaw but) (more : ∀ i, but i → but' i) :
    s.ClaimLaw but' :=
  { law with named := fun i out => law.named i (out ∘ more i) }

/-- A claimant that names slot i is its announcement, which is GRANTED. -/
theorem State.ClaimLaw.claimant_at (law : s.ClaimLaw but) {z : Zone} {h : Handle} (eq : s.zones[z].claimant = some h)
    {i : SlotId} (at_ : handleSlot h = i) : h = s.handleAt i ∧ s.slots[i].state = .granted := by
  subst at_
  obtain ⟨handle, granted, -⟩ := law.claimant z h eq
  exact ⟨handle.symm, granted⟩

/-- An owner that names slot i is its announcement, which is PLAYING or STOPPING. -/
theorem State.ClaimLaw.owner_at (law : s.ClaimLaw but) {z : Zone} {h : Handle} (eq : s.zones[z].owner = some h)
    {i : SlotId} (at_ : handleSlot h = i) :
    h = s.handleAt i ∧ (s.slots[i].state = .playing ∨ s.slots[i].state = .stopping) := by
  subst at_
  obtain ⟨handle, playing, -⟩ := law.owner z h eq
  exact ⟨handle.symm, playing⟩

/-- An announcement in none of the three states is off the air. -/
theorem State.ClaimLaw.offAir (law : s.ClaimLaw but) {i : SlotId} (granted : s.slots[i].state ≠ .granted)
    (playing : s.slots[i].state ≠ .playing) (stopping : s.slots[i].state ≠ .stopping) : s.slots[i].OffAir := by
  refine ⟨Classical.not_not.mp fun some_ => ?_, granted, playing, stopping⟩
  rcases (law.onAir i).mpr some_ with h | h | h <;> contradiction

/-- A GRANTED announcement that is not excepted claims exactly its effective zones. -/
theorem State.ClaimLaw.claims_iff (law : s.ClaimLaw but) {i : SlotId} (all : ¬ but i)
    (granted : s.slots[i].state = .granted) (z : Zone) :
    inZones s.slots[i].effZones z = true ↔ s.zones[z].claimant = some (s.handleAt i) := by
  constructor
  · intro mem
    rcases law.named i all z mem with ⟨-, eq⟩ | ⟨not, -⟩
    · exact eq
    · exact absurd granted not
  · intro eq
    have := (law.claimant z _ eq).2.2
    simpa only [handleSlot_handleAt] using this

end ClaimLaw

/-! ### Steps that leave owners and claimants -/

/-- Two records that the law of zones does not tell apart: the same handle, masks and effective zones, and in the same
part of R32. -/
structure Slot.SameClaims (a b : Slot) : Prop where
  generation : b.generation = a.generation
  zoneMask : b.zoneMask = a.zoneMask
  effZones : b.effZones = a.effZones
  granted : b.state = .granted ↔ a.state = .granted
  owning : b.state = .playing ∨ b.state = .stopping ↔ a.state = .playing ∨ a.state = .stopping

theorem Slot.SameClaims.refl (a : Slot) : a.SameClaims a := ⟨rfl, rfl, rfl, .rfl, .rfl⟩

theorem Slot.SameClaims.trans {a b c : Slot} (h : a.SameClaims b) (k : b.SameClaims c) : a.SameClaims c :=
  ⟨k.generation.trans h.generation, k.zoneMask.trans h.zoneMask, k.effZones.trans h.effZones,
    k.granted.trans h.granted, k.owning.trans h.owning⟩

/-- A record that kept handle, masks, effective zones and state. -/
theorem Slot.SameClaims.of_eq {a b : Slot} (generation : b.generation = a.generation) (zoneMask : b.zoneMask = a.zoneMask)
    (effZones : b.effZones = a.effZones) (state : b.state = a.state) : a.SameClaims b :=
  ⟨generation, zoneMask, effZones, by rw [state], by rw [state]⟩

/-- A start that becomes due changes no claim. -/
theorem Slot.SameClaims.of_due {a b : Slot} (h : ∃ due : Bool, b = { a with startDue := due }) : a.SameClaims b := by
  obtain ⟨due, rfl⟩ := h
  exact .of_eq rfl rfl rfl rfl

/-- What the play side writes of a record changes no claim. -/
theorem Slot.Played.sameClaims {a b : Slot} (h : a.Played b) : a.SameClaims b := by
  refine ⟨h.generation, h.zoneMask, h.effZones, ?_, ?_⟩ <;> rcases h.state with same | ⟨was, is⟩ <;> simp [*]

/-- A step that leaves owners, claimants and enables, and every announcement's claims. -/
structure State.Steady (s t : State) : Prop where
  zones : t.zones = s.zones
  enabled : ∀ z : Zone, t.stages[z].enabled = s.stages[z].enabled
  slots : ∀ i : SlotId, s.slots[i].SameClaims t.slots[i]

theorem State.Steady.refl (s : State) : s.Steady s := ⟨rfl, fun _ => rfl, fun _ => .refl _⟩

theorem State.Steady.trans {s t u : State} (h : s.Steady t) (k : t.Steady u) : s.Steady u :=
  ⟨k.zones.trans h.zones, fun z => (k.enabled z).trans (h.enabled z), fun i => (h.slots i).trans (k.slots i)⟩

/-- A step apart from announcements, zones and stages. -/
theorem State.Steady.of_frame {s t : State} (slots : t.slots = s.slots) (zones : t.zones = s.zones)
    (stages : t.stages = s.stages) : s.Steady t :=
  ⟨zones, fun z => by rw [stages], fun i => by rw [slots]; exact .refl _⟩

/-- A step on one announcement's record alone, apart from zones and stages. -/
theorem State.Steady.of_set {s t : State} {i : SlotId} {x : Slot} (slots : t.slots = s.slots.set i x)
    (same : s.slots[i].SameClaims x) (zones : t.zones = s.zones) (stages : t.stages = s.stages) : s.Steady t := by
  refine ⟨zones, fun z => by rw [stages], fun j => ?_⟩
  rw [slots]
  by_cases e : j = i
  · subst e; simpa using same
  · exact (s.setSlot_get_other i j x e).symm ▸ .refl _

theorem State.Steady.setSlot {s t : State} (h : s.Steady t) {i : SlotId} {x : Slot} (same : t.slots[i].SameClaims x) :
    s.Steady (t.setSlot i x) := h.trans (.of_set rfl same rfl rfl)

theorem State.Steady.setStage {s t : State} (h : s.Steady t) {z : Zone} {x : Stage}
    (same : x.enabled = t.stages[z].enabled) : s.Steady (t.setStage z x) := by
  refine h.trans ⟨rfl, fun w => ?_, fun _ => .refl _⟩
  by_cases e : w = z
  · subst e; simpa using same
  · rw [t.setStage_get_other z w x e]

theorem State.Steady.handleAt {s t : State} (h : s.Steady t) (i : SlotId) : t.handleAt i = s.handleAt i := by
  simp only [State.handleAt, (h.slots i).generation]

/-- A steady step keeps the law of claims. -/
theorem State.Steady.claimLaw {s t : State} {but : SlotId → Prop} (h : s.Steady t) (law : s.ClaimLaw but) :
    t.ClaimLaw but := by
  have onAir (i : SlotId) :
      (t.slots[i].state = .granted ∨ t.slots[i].state = .playing ∨ t.slots[i].state = .stopping)
        ↔ s.slots[i].state = .granted ∨ s.slots[i].state = .playing ∨ s.slots[i].state = .stopping := by
    rw [(h.slots i).granted, (h.slots i).owning]
  constructor
  · intro z a eq
    rw [h.zones] at eq
    rw [h.handleAt, (h.slots _).granted, (h.slots _).effZones]
    exact law.claimant z a eq
  · intro z a eq
    rw [h.zones] at eq
    rw [h.handleAt, (h.slots _).owning, (h.slots _).effZones]
    exact law.owner z a eq
  · intro i
    rw [(h.slots i).effZones, (h.slots i).zoneMask]
    exact law.mask i
  · intro i
    rw [onAir, (h.slots i).effZones]
    exact law.onAir i
  · intro i all z
    rw [(h.slots i).effZones, h.zones, h.handleAt, ne_eq, (h.slots i).granted]
    exact law.named i all z

/-! ### Steps that keep the law -/

/-- After a step that keeps it the law of claims holds, no zone is claimed afresh, and the enables stand. -/
structure State.ZonesKept (s t : State) : Prop where
  law : t.ClaimLaw nobody
  claimant : ∀ z : Zone, t.zones[z].claimant ≠ none → s.zones[z].claimant ≠ none
  enabled : ∀ z : Zone, t.stages[z].enabled = s.stages[z].enabled

theorem State.ZonesKept.trans {s t u : State} (h : s.ZonesKept t) (k : t.ZonesKept u) : s.ZonesKept u :=
  ⟨k.law, fun z => h.claimant z ∘ k.claimant z, fun z => (k.enabled z).trans (h.enabled z)⟩

/-- A steady step keeps the law. -/
theorem State.Steady.kept {s t : State} (h : s.Steady t) (law : s.ClaimLaw nobody) : s.ZonesKept t :=
  ⟨h.claimLaw law, fun z => by rw [h.zones]; exact id, h.enabled⟩

/-- A steady step after one that keeps the law. -/
theorem State.ZonesKept.steady {s t u : State} (h : s.ZonesKept t) (k : t.Steady u) : s.ZonesKept u :=
  h.trans (k.kept h.law)

theorem State.ZonesKept.zoneLaw {s t : State} (h : s.ZonesKept t) (law : s.ZoneLaw) : t.ZoneLaw := by
  refine t.zoneLaw_iff.mpr ⟨h.law, fun z some_ => ?_⟩
  rw [h.enabled]
  exact (s.zoneLaw_iff.mp law).2 z (h.claimant z some_)

theorem State.ZoneLaw.claimLaw {s : State} (law : s.ZoneLaw) : s.ClaimLaw nobody := (s.zoneLaw_iff.mp law).1

/-! ### An announcement that leaves its zones -/

/-- The announcement in slot i leaves every zone and is off the air; no other claim and no enable changes. -/
structure State.Vacates (s t : State) (i : SlotId) : Prop where
  claimant : ∀ (z : Zone) (h : Handle), t.zones[z].claimant = some h ↔ s.zones[z].claimant = some h ∧ handleSlot h ≠ i
  owner : ∀ (z : Zone) (h : Handle), t.zones[z].owner = some h ↔ s.zones[z].owner = some h ∧ handleSlot h ≠ i
  enabled : ∀ z : Zone, t.stages[z].enabled = s.stages[z].enabled
  others : ∀ j : SlotId, j ≠ i → s.slots[j].SameClaims t.slots[j]
  offAir : t.slots[i].OffAir

/-- The law of claims after an announcement left its zones: it is excepted no longer. -/
theorem State.Vacates.claimLaw {s t : State} {i : SlotId} {but : SlotId → Prop} (v : s.Vacates t i)
    (law : s.ClaimLaw but) : t.ClaimLaw fun j => but j ∧ j ≠ i := by
  have handle (j : SlotId) (other : j ≠ i) : t.handleAt j = s.handleAt j := by
    simp only [State.handleAt, (v.others j other).generation]
  constructor
  · intro z h eq
    obtain ⟨was, other⟩ := (v.claimant z h).mp eq
    rw [handle _ other, (v.others _ other).granted, (v.others _ other).effZones]
    exact law.claimant z h was
  · intro z h eq
    obtain ⟨was, other⟩ := (v.owner z h).mp eq
    rw [handle _ other, (v.others _ other).owning, (v.others _ other).effZones]
    exact law.owner z h was
  · intro j
    by_cases e : j = i
    · subst e; rw [v.offAir.effZones]; exact BitVec.zero_and
    · rw [(v.others j e).effZones, (v.others j e).zoneMask]; exact law.mask j
  · intro j
    by_cases e : j = i
    · subst e
      simp only [v.offAir.effZones, v.offAir.notGranted, v.offAir.notPlaying, v.offAir.notStopping, or_self, ne_eq,
        not_true]
    · rw [(v.others j e).granted, (v.others j e).owning, (v.others j e).effZones]
      exact law.onAir j
  · intro j all z mem
    by_cases e : j = i
    · subst e; rw [v.offAir.effZones, inZones_empty] at mem; cases mem
    · rw [(v.others j e).effZones] at mem
      rw [(v.others j e).granted, ne_eq, (v.others j e).granted, v.claimant, v.owner, handle j e, handleSlot_handleAt]
      simpa only [e, ne_eq, not_false_eq_true, and_true] using law.named j (fun b => all ⟨b, e⟩) z mem

/-- An announcement that leaves its zones keeps the law. -/
theorem State.Vacates.kept {s t : State} {i : SlotId} (v : s.Vacates t i) (law : s.ClaimLaw nobody) : s.ZonesKept t := by
  refine ⟨(v.claimLaw law).mono fun _ h => h.1, fun z some_ => ?_, v.enabled⟩
  obtain ⟨h, eq⟩ := Option.ne_none_iff_exists'.mp some_
  rw [((v.claimant z h).mp eq).1]
  nofun

/-- A steady step, and then an announcement leaves its zones. -/
theorem State.Vacates.then_steady {s t u : State} {i : SlotId} (v : s.Vacates t i) (k : t.Steady u) : s.Vacates u i := by
  refine ⟨?_, ?_, fun z => (k.enabled z).trans (v.enabled z), fun j e => (v.others j e).trans (k.slots j), ?_⟩
  · rw [k.zones]; exact v.claimant
  · rw [k.zones]; exact v.owner
  · have same := k.slots i
    have owning := mt same.owning.mp (not_or.mpr ⟨v.offAir.notPlaying, v.offAir.notStopping⟩)
    exact ⟨same.effZones.trans v.offAir.effZones, mt same.granted.mp v.offAir.notGranted, (not_or.mp owning).1,
      (not_or.mp owning).2⟩

/-- An announcement that is off the air: no zone names it. -/
theorem State.ClaimLaw.unnamed {s : State} {but : SlotId → Prop} (law : s.ClaimLaw but) {i : SlotId}
    (off : s.slots[i].OffAir) (z : Zone) :
    (∀ h, s.zones[z].claimant = some h → handleSlot h ≠ i) ∧ ∀ h, s.zones[z].owner = some h → handleSlot h ≠ i := by
  refine ⟨fun h eq at_ => off.notGranted (law.claimant_at eq at_).2, fun h eq at_ => ?_⟩
  rcases (law.owner_at eq at_).2 with playing | stopping
  · exact off.notPlaying playing
  · exact off.notStopping stopping

/-- The record of an announcement off the air becomes another such record. -/
theorem State.ClaimLaw.vacates_offAir {s t : State} {but : SlotId → Prop} (law : s.ClaimLaw but) {i : SlotId} {x : Slot}
    (off : s.slots[i].OffAir) (slots : t.slots = s.slots.set i x) (still : x.OffAir) (zones : t.zones = s.zones)
    (stages : t.stages = s.stages) : s.Vacates t i := by
  refine ⟨fun z h => ?_, fun z h => ?_, fun z => by rw [stages], fun j e => ?_, ?_⟩
  · rw [zones]; exact ⟨fun eq => ⟨eq, (law.unnamed off z).1 h eq⟩, And.left⟩
  · rw [zones]; exact ⟨fun eq => ⟨eq, (law.unnamed off z).2 h eq⟩, And.left⟩
  · rw [slots]; exact (s.setSlot_get_other i j x e).symm ▸ .refl _
  · simpa [slots] using still

/-- An announcement that owns no zone has its claims withdrawn, and its record goes off the air (R24, R39, R44). -/
theorem State.ClaimLaw.vacates_withdrawn {s t : State} {but : SlotId → Prop} (law : s.ClaimLaw but) {i : SlotId}
    (notPlaying : s.slots[i].state ≠ .playing) (notStopping : s.slots[i].state ≠ .stopping)
    (zones : ∀ z : Zone, t.zones[z] = if s.zones[z].claimant = some (s.handleAt i)
      then { owner := s.zones[z].owner, claimant := none } else s.zones[z])
    (enabled : ∀ z : Zone, t.stages[z].enabled = s.stages[z].enabled)
    (others : ∀ j : SlotId, j ≠ i → s.slots[j].SameClaims t.slots[j]) (off : t.slots[i].OffAir) : s.Vacates t i := by
  refine ⟨fun z h => ?_, fun z h => ?_, enabled, others, off⟩
  · rw [zones]
    split
    · next mine =>
      rw [mine]
      refine ⟨fun eq => (by cases eq), fun ⟨eq, other⟩ => absurd ?_ other⟩
      rw [← Option.some.inj eq, handleSlot_handleAt]
    · next other =>
      refine ⟨fun eq => ⟨eq, fun at_ => other ?_⟩, And.left⟩
      rw [eq, (law.claimant_at eq at_).1]
  · have same : t.zones[z].owner = s.zones[z].owner := by rw [zones]; split <;> rfl
    rw [same]
    refine ⟨fun eq => ⟨eq, fun at_ => ?_⟩, And.left⟩
    exact (law.owner_at eq at_).2.elim notPlaying notStopping

/-- An announcement that claims no zone has its zones released, and its record goes off the air (R47, R50). -/
theorem State.ClaimLaw.vacates_released {s t : State} {but : SlotId → Prop} (law : s.ClaimLaw but) {i : SlotId}
    (notGranted : s.slots[i].state ≠ .granted)
    (zones : ∀ z : Zone, t.zones[z] = if s.zones[z].owner = some (s.handleAt i)
      then { owner := none, claimant := s.zones[z].claimant } else s.zones[z])
    (enabled : ∀ z : Zone, t.stages[z].enabled = s.stages[z].enabled)
    (others : ∀ j : SlotId, j ≠ i → s.slots[j].SameClaims t.slots[j]) (off : t.slots[i].OffAir) : s.Vacates t i := by
  refine ⟨fun z h => ?_, fun z h => ?_, enabled, others, off⟩
  · have same : t.zones[z].claimant = s.zones[z].claimant := by rw [zones]; split <;> rfl
    rw [same]
    exact ⟨fun eq => ⟨eq, fun at_ => notGranted (law.claimant_at eq at_).2⟩, And.left⟩
  · rw [zones]
    split
    · next mine =>
      rw [mine]
      refine ⟨fun eq => (by cases eq), fun ⟨eq, other⟩ => absurd ?_ other⟩
      rw [← Option.some.inj eq, handleSlot_handleAt]
    · next other =>
      refine ⟨fun eq => ⟨eq, fun at_ => other ?_⟩, And.left⟩
      rw [eq, (law.owner_at eq at_).1]

end Sys2Proof.Machine

/-! ## The law of zones under the host's commands and bytes -/

namespace Sys2Proof.Machine

/-! ### Stages and the start check -/

@[simp] theorem Stage.startIdle_enabled (g : Stage) : g.startIdle.enabled = g.enabled := by
  unfold Stage.startIdle
  split
  · rfl
  · split <;> rfl

@[simp] theorem Stage.rampDownNow_enabled (g : Stage) : g.rampDownNow.enabled = g.enabled := by
  unfold Stage.rampDownNow
  split <;> rfl

@[simp] theorem Stage.claimantArrives_enabled (g : Stage) : g.claimantArrives.enabled = g.enabled := by
  unfold Stage.claimantArrives
  split
  · rfl
  · rfl
  · rfl
  · split <;> rfl

@[simp] theorem Stage.disabled_enabled (g : Stage) (hadOwner : Bool) : (g.disabled hadOwner).enabled = g.enabled := by
  unfold Stage.disabled
  split
  · rfl
  · split
    · rfl
    · simp

theorem State.Steady.settleIdle {s t : State} (h : s.Steady t) (z : Zone) : s.Steady (t.settleIdle z) := by
  rw [State.settleIdle_eq]
  refine h.setStage ?_
  split <;> simp

theorem State.Steady.startCheck {s t : State} (h : s.Steady t) (i : SlotId) : s.Steady (t.startCheck i) := by
  rw [State.startCheck_eq]
  exact h.setSlot (.of_due ⟨_, rfl⟩)

theorem State.Steady.startCheckZone {s t : State} (h : s.Steady t) (z : Zone) : s.Steady (t.startCheckZone z) := by
  unfold State.startCheckZone
  split
  · exact h.startCheck _
  · exact h

/-! ### Claims withdrawn, zones released -/

/-- The withdrawal of an announcement's claims: its zones lose their claimant, and announcements and enables stand. -/
theorem State.withdrawClaims_claims (s : State) (h : Handle) :
    (s.withdrawClaims h).slots = s.slots
      ∧ (∀ z : Zone, (s.withdrawClaims h).zones[z] = if s.zones[z].claimant = some h
          then { owner := s.zones[z].owner, claimant := none } else s.zones[z])
      ∧ ∀ z : Zone, (s.withdrawClaims h).stages[z].enabled = s.stages[z].enabled := by
  obtain ⟨zones, stages, eq, at_⟩ := s.withdrawClaims_eq h
  rw [eq]
  refine ⟨rfl, fun z => (at_ z).1, fun z => ?_⟩
  simp only [(at_ z).2]
  split <;> simp

/-- A GRANTED announcement that loses its claims leaves its zones (R39). -/
theorem State.ClaimLaw.claimLoss {s : State} {but : SlotId → Prop} (law : s.ClaimLaw but) {i : SlotId}
    (granted : s.slots[i].state = .granted) : s.Vacates (s.claimLoss i) i := by
  obtain ⟨slots, zones, enabled⟩ := s.withdrawClaims_claims (s.handleAt i)
  have lost : s.slots[i].loseClaims.OffAir := by
    rw [Slot.loseClaims, if_pos granted]
    exact ⟨rfl, by simp, by simp, by simp⟩
  refine law.vacates_withdrawn (by rw [granted]; decide) (by rw [granted]; decide) zones enabled (fun j e => ?_) ?_
  · simp only [State.claimLoss]
    rw [State.setSlot_get_other _ _ _ _ e, slots]
    exact .refl _
  · simpa [State.claimLoss, slots] using lost

/-- An announcement gives up its zones and its engine: the zones it owned have no owner, enables stand, and no other
announcement's claims change (R47, R50). -/
theorem State.giveUp_claims (s : State) (i : SlotId) :
    (∀ z : Zone, (s.giveUp i).zones[z] = if s.zones[z].owner = some (s.handleAt i)
        then { owner := none, claimant := s.zones[z].claimant } else s.zones[z])
      ∧ (∀ z : Zone, (s.giveUp i).stages[z].enabled = s.stages[z].enabled)
      ∧ ∀ j : SlotId, j ≠ i → s.slots[j].SameClaims (s.giveUp i).slots[j] := by
  obtain ⟨zones, stages, slots, eq, due, at_⟩ := s.releaseZones_eq (s.handleAt i)
  have unbound : ((s.releaseZones (s.handleAt i)).unbindOf i).zones = zones
      ∧ ((s.releaseZones (s.handleAt i)).unbindOf i).stages = stages
      ∧ ((s.releaseZones (s.handleAt i)).unbindOf i).slots = slots := by
    rw [eq]
    unfold State.unbindOf
    split <;> exact ⟨rfl, rfl, rfl⟩
  obtain ⟨zones_eq, stages_eq, slots_eq⟩ := unbound
  simp only [State.giveUp, State.setSlot_zones, State.setSlot_stages, zones_eq, stages_eq]
  refine ⟨fun z => (at_ z).1, fun z => ?_, fun j e => ?_⟩
  · rw [(at_ z).2]
    split <;> simp
  · rw [State.setSlot_get_other _ _ _ _ e, slots_eq]
    exact .of_due (due j)

/-- An announcement that has given up its zones is freed or requeued: its record goes off the air. -/
structure State.Dismisses (s t : State) (i : SlotId) : Prop where
  zones : t.zones = s.zones
  stages : t.stages = s.stages
  others : ∀ j : SlotId, j ≠ i → t.slots[j] = s.slots[j]
  offAir : t.slots[i].OffAir

/-- One slot's record goes off the air. -/
theorem State.Dismisses.of_slots {s t : State} {i : SlotId} {x : Slot} (slots : t.slots = s.slots.set i x)
    (off : x.OffAir) (zones : t.zones = s.zones) (stages : t.stages = s.stages) : s.Dismisses t i := by
  refine ⟨zones, stages, fun j e => ?_, ?_⟩ <;> rw [slots]
  · exact s.setSlot_get_other i j x e
  · simpa using off

/-- A FREE slot is off the air. -/
theorem Slot.free_offAir (g : BitVec 4) : (Slot.free g).OffAir := by constructor <;> simp [Slot.free]

theorem State.freeSlot_dismisses (s : State) (i : SlotId) (o : AnnOutcome) : s.Dismisses (s.freeSlot i o) i :=
  .of_slots rfl (Slot.free_offAir _) rfl rfl

theorem State.requeue_dismisses (s : State) (i : SlotId) (a : RequeueAction) (by_ : Byte) :
    s.Dismisses (s.requeue i a by_) i := by
  cases a with
  | restart =>
    rw [State.requeue_restart]
    exact .of_slots rfl (by constructor <;> simp) rfl rfl
  | resume =>
    rw [State.requeue_resume]
    exact .of_slots rfl (by constructor <;> simp) rfl rfl

theorem State.dispose_dismisses (s : State) (i : SlotId) : s.Dismisses (s.dispose i) i := by
  rcases s.dispose_cases i with ⟨o, eq⟩ | ⟨a, by_, eq⟩ <;> rw [eq]
  · exact s.freeSlot_dismisses i o
  · exact s.requeue_dismisses i a by_

/-- An announcement that owns its zones gives them up and is dismissed (R47, R50). -/
theorem State.ClaimLaw.gaveUp {s t : State} {but : SlotId → Prop} (law : s.ClaimLaw but) {i : SlotId}
    (notGranted : s.slots[i].state ≠ .granted) (d : (s.giveUp i).Dismisses t i) : s.Vacates t i := by
  obtain ⟨zones, enabled, others⟩ := s.giveUp_claims i
  refine law.vacates_released notGranted (fun z => ?_) (fun z => ?_) (fun j e => ?_) d.offAir
  · rw [d.zones, zones]
  · rw [d.stages, enabled]
  · rw [d.others j e]; exact others j e

/-- An announcement that claims its zones has its claims withdrawn and is freed (R24, R44). -/
theorem State.ClaimLaw.withdrawn {s : State} {but : SlotId → Prop} (law : s.ClaimLaw but) {i : SlotId}
    (notPlaying : s.slots[i].state ≠ .playing) (notStopping : s.slots[i].state ≠ .stopping) (o : AnnOutcome) :
    s.Vacates ((s.withdrawClaims (s.handleAt i)).freeSlot i o) i := by
  obtain ⟨slots, zones, enabled⟩ := s.withdrawClaims_claims (s.handleAt i)
  have d := State.freeSlot_dismisses (s.withdrawClaims (s.handleAt i)) i o
  refine law.vacates_withdrawn notPlaying notStopping (fun z => ?_) (fun z => ?_) (fun j e => ?_) d.offAir
  · rw [d.zones, zones]
  · rw [d.stages, enabled]
  · rw [d.others j e, slots]; exact .refl _

theorem State.Steady.requestPass {s t : State} (h : s.Steady t) : s.Steady t.requestPass :=
  h.trans (.of_frame rfl rfl rfl)

theorem State.ZonesKept.requestPass {s t : State} (h : s.ZonesKept t) : s.ZonesKept t.requestPass :=
  h.steady (.of_frame rfl rfl rfl)

/-- The end of a fade dismisses the announcement from its zones (R47). -/
theorem State.ClaimLaw.endFade {s : State} {but : SlotId → Prop} (law : s.ClaimLaw but) {i : SlotId}
    (stopping : s.slots[i].state = .stopping) : s.Vacates (s.endFade i) i := by
  have disposed : s.Vacates ((s.giveUp i).dispose i) i :=
    law.gaveUp (by rw [stopping]; decide) (State.dispose_dismisses _ i)
  exact disposed.then_steady (.requestPass (.refl _))

/-! ### The commands of the Announcement Table -/

/-- Whatever the parameters and the state, the body of a command keeps the law of zones. -/
def Body.KeepsZones (body : Body) : Prop := ∀ (p : Params) (s : State), s.ZoneLaw → (body p s).1.ZoneLaw

/-- A step that keeps the law of claims keeps the law of zones. -/
theorem State.ZoneLaw.keep {s t : State} (law : s.ZoneLaw) (h : s.ClaimLaw nobody → s.ZonesKept t) : t.ZoneLaw :=
  (h law.claimLaw).zoneLaw law

theorem State.ZoneLaw.steady {s t : State} (law : s.ZoneLaw) (h : s.Steady t) : t.ZoneLaw := law.keep h.kept

theorem annOpenBody_keepsZones : annOpenBody.KeepsZones := by
  intro p s law
  unfold annOpenBody
  split
  · exact law
  · split
    · exact law
    · next i found =>
      have free := State.lowestFree_free found
      refine law.keep fun claims => State.Vacates.kept (i := i) ?_ claims
      exact claims.vacates_offAir (claims.offAir (by rw [free]; decide) (by rw [free]; decide) (by rw [free]; decide)) rfl
        ⟨rfl, by simp [Slot.opened], by simp [Slot.opened], by simp [Slot.opened]⟩ rfl rfl

theorem annAppendBody_keepsZones : annAppendBody.KeepsZones := by
  intro p s law
  unfold annAppendBody
  split
  · exact law
  · next i _ =>
    simp only
    split
    · exact law
    · split
      · exact law
      · split
        · exact law
        · split
          · exact law
          · exact law.steady (.of_set (i := i) rfl (.of_eq rfl rfl rfl rfl) rfl rfl)

theorem annSubmitBody_keepsZones : annSubmitBody.KeepsZones := by
  intro p s law
  unfold annSubmitBody
  split
  · exact law
  · next i _ =>
    simp only
    split
    · exact law
    · next building =>
      rw [not_not] at building
      split
      · exact law
      · split
        · exact law
        · split
          · exact law
          · split
            · exact law
            · have queued : s.slots[i].SameClaims
                  { s.slots[i] with state := .queued, deadline := armedDeadline s.slots[i].deadlineSetting } :=
                ⟨rfl, rfl, rfl, by rw [building]; simp, by rw [building]; simp⟩
              exact law.steady (.of_set rfl queued rfl rfl)

/-- A PLAYING announcement that becomes STOPPING keeps its zones (R25, R38). -/
theorem State.Steady.enterStopping {s t : State} (h : s.Steady t) {i : SlotId} (playing : t.slots[i].state = .playing)
    (why : Stopping) : s.Steady (t.enterStopping i why) := by
  have stopped : t.slots[i].SameClaims { t.slots[i] with state := .stopping, stop := some why } :=
    ⟨rfl, rfl, rfl, by rw [playing]; simp, by rw [playing]; simp⟩
  refine h.trans (.trans (.setSlot (.refl t) stopped) ?_)
  simp only [State.enterStopping]
  split <;> exact .of_frame rfl rfl rfl

theorem annCancelBody_keepsZones : annCancelBody.KeepsZones := by
  intro p s law
  have waiting {i : SlotId} (granted : s.slots[i].state ≠ .granted) (playing : s.slots[i].state ≠ .playing)
      (stopping : s.slots[i].state ≠ .stopping) : (s.freeSlot i .cancelled).ZoneLaw := by
    refine law.keep fun claims => State.Vacates.kept (i := i) ?_ claims
    exact claims.vacates_offAir (claims.offAir granted playing stopping) rfl (Slot.free_offAir _) rfl rfl
  unfold annCancelBody
  split
  · exact law
  · next i _ =>
    split
    · exact law
    · next building => exact waiting (by rw [building]; decide) (by rw [building]; decide) (by rw [building]; decide)
    · next queued =>
      exact (waiting (by rw [queued]; decide) (by rw [queued]; decide) (by rw [queued]; decide)).steady (.requestPass (.refl _))
    · next granted =>
      exact law.keep fun claims =>
        ((claims.withdrawn (by rw [granted]; decide) (by rw [granted]; decide) _).kept claims).requestPass
    · next playing => exact law.steady (.requestPass (.enterStopping (.refl s) playing _))
    · unfold cancelStopping
      split
      · exact law.steady (.setSlot (.refl s) (.of_eq rfl rfl rfl rfl))
      · exact law

theorem annStatusBody_keepsZones : annStatusBody.KeepsZones := by
  intro p s law
  unfold annStatusBody
  split <;> exact law

/-! ### ZONE_SET -/

theorem State.Steady.setIdleHold {s t : State} (h : s.Steady t) (z : Zone) (hold : Nat) :
    s.Steady (t.setIdleHold z hold) := by
  unfold State.setIdleHold
  split
  · exact h
  · refine .settleIdle (h.setStage ?_) z
    rfl

/-- An announcement's record once a disable has taken zone z from it (R52). -/
def State.zoneTaken (s : State) (i : SlotId) (z : Zone) : State :=
  (s.setZone z { s.zones[z] with owner := none }).setSlot i
    { s.slots[i] with effZones := s.slots[i].effZones &&& ~~~zoneBit z }

section zoneTaken
variable {s : State} {i : SlotId} {z : Zone}

theorem State.zoneTaken_slot : (s.zoneTaken i z).slots[i]
    = { s.slots[i] with effZones := s.slots[i].effZones &&& ~~~zoneBit z } := State.setSlot_get_self _ _ _

theorem State.zoneTaken_other {j : SlotId} (e : j ≠ i) : (s.zoneTaken i z).slots[j] = s.slots[j] :=
  State.setSlot_get_other _ _ _ _ e

theorem State.zoneTaken_zone : (s.zoneTaken i z).zones[z] = { owner := none, claimant := s.zones[z].claimant } :=
  State.setZone_get_self _ _ _

theorem State.zoneTaken_zone_other {w : Zone} (e : w ≠ z) : (s.zoneTaken i z).zones[w] = s.zones[w] :=
  State.setZone_get_other _ _ _ _ e

theorem State.zoneTaken_claimant (w : Zone) : (s.zoneTaken i z).zones[w].claimant = s.zones[w].claimant := by
  by_cases e : w = z
  · subst e; rw [State.zoneTaken_zone]
  · rw [State.zoneTaken_zone_other e]

theorem State.zoneTaken_handleAt (j : SlotId) : (s.zoneTaken i z).handleAt j = s.handleAt j := by
  by_cases e : j = i
  · subst e; simp only [State.handleAt, State.zoneTaken_slot]
  · simp only [State.handleAt, State.zoneTaken_other e]

/-- Apart from its effective zones the announcement's record stands. -/
theorem State.zoneTaken_state (j : SlotId) : (s.zoneTaken i z).slots[j].state = s.slots[j].state
    ∧ (s.zoneTaken i z).slots[j].zoneMask = s.slots[j].zoneMask := by
  by_cases e : j = i
  · subst e; rw [State.zoneTaken_slot]; exact ⟨rfl, rfl⟩
  · rw [State.zoneTaken_other e]; exact ⟨rfl, rfl⟩

/-- Zone z leaves the effective zones of announcement i, and no other zone does. -/
theorem State.zoneTaken_effZones (j : SlotId) (w : Zone) :
    inZones (s.zoneTaken i z).slots[j].effZones w = (inZones s.slots[j].effZones w && !(j == i && w == z)) := by
  by_cases e : j = i
  · subst e
    rw [State.zoneTaken_slot, inZones_remove]
    by_cases w = z <;> simp [*]
  · rw [State.zoneTaken_other e]; simp [e]

end zoneTaken

/-- An owner that keeps another zone loses one (R52). -/
theorem State.ClaimLaw.zoneTaken {s : State} (law : s.ClaimLaw nobody) {z : Zone} {i : SlotId}
    (owns : s.zones[z].owner = some (s.handleAt i)) (left : (s.zoneTaken i z).slots[i].effZones ≠ 0#4) :
    s.ZonesKept (s.zoneTaken i z) := by
  obtain ⟨-, owning⟩ := law.owner_at owns (handleSlot_handleAt s i)
  refine ⟨⟨fun w h eq => ?_, fun w h eq => ?_, fun j => ?_, fun j => ?_, fun j _ w mem => ?_⟩, fun w => ?_, fun _ => rfl⟩
  · rw [State.zoneTaken_claimant] at eq
    have claims := law.claimant w h eq
    have other : handleSlot h ≠ i := by
      rintro rfl
      rcases owning with is | is <;> rw [is] at claims <;> simp at claims
    rw [State.zoneTaken_handleAt, State.zoneTaken_other other]
    exact claims
  · have e : w ≠ z := by rintro rfl; rw [State.zoneTaken_zone] at eq; cases eq
    rw [State.zoneTaken_zone_other e] at eq
    rw [State.zoneTaken_handleAt, (State.zoneTaken_state _).1, State.zoneTaken_effZones]
    simpa [e] using law.owner w h eq
  · rw [zoneSet_within_iff, (State.zoneTaken_state j).2]
    intro w mem
    rw [State.zoneTaken_effZones, Bool.and_eq_true] at mem
    exact zoneSet_within_iff.mp (law.mask j) w mem.1
  · rw [(State.zoneTaken_state j).1]
    by_cases e : j = i
    · subst e; exact iff_of_true (.inr owning) left
    · rw [State.zoneTaken_other e]; exact law.onAir j
  · rw [(State.zoneTaken_state j).1, State.zoneTaken_claimant, State.zoneTaken_handleAt]
    rw [State.zoneTaken_effZones, Bool.and_eq_true] at mem
    obtain ⟨was, still⟩ := mem
    refine (law.named j id w was).imp_right fun ⟨notGranted, eq⟩ => ⟨notGranted, ?_⟩
    have e : w ≠ z := by
      rintro rfl
      have := State.handleAt_inj (Option.some.inj (owns.symm.trans eq))
      simp [this] at still
    rw [State.zoneTaken_zone_other e, eq]
  · rw [State.zoneTaken_claimant]; exact id

/-- An owner that a disable takes its last zone from leaves all its zones (R53). -/
theorem State.ClaimLaw.zoneTaken_last {s t : State} (law : s.ClaimLaw nobody) {z : Zone} {i : SlotId}
    (owns : s.zones[z].owner = some (s.handleAt i)) (d : ((s.zoneTaken i z).giveUp i).Dismisses t i) :
    s.Vacates t i := by
  obtain ⟨-, owning⟩ := law.owner_at owns (handleSlot_handleAt s i)
  obtain ⟨zones, enabled, others⟩ := (s.zoneTaken i z).giveUp_claims i
  refine law.vacates_released (by rcases owning with is | is <;> rw [is] <;> decide) (fun w => ?_) (fun w => ?_)
    (fun j e => ?_) d.offAir
  · rw [d.zones, zones, State.zoneTaken_handleAt]
    by_cases e : w = z
    · subst e; rw [if_pos owns, State.zoneTaken_zone]; simp
    · rw [State.zoneTaken_zone_other e]
  · rw [d.stages, enabled]; rfl
  · rw [d.others j e, ← State.zoneTaken_other (z := z) e]; exact others j e

/-- An owner loses a zone by a disable (R52, R53). -/
theorem State.ClaimLaw.ownerLosesZone {s : State} (law : s.ClaimLaw nobody) {z : Zone} {i : SlotId}
    (owns : s.zones[z].owner = some (s.handleAt i)) : s.ZonesKept (s.ownerLosesZone i z) := by
  obtain ⟨-, owning⟩ := law.owner_at owns (handleSlot_handleAt s i)
  have dismissed {t : State} (d : ((s.zoneTaken i z).giveUp i).Dismisses t i) : s.ZonesKept t :=
    (law.zoneTaken_last owns d).kept law
  have state := (State.zoneTaken_state (s := s) (i := i) (z := z) i).1
  unfold State.ownerLosesZone
  simp only
  rw [← State.zoneTaken]
  split
  · next left => exact law.zoneTaken owns left
  · split
    · split
      · exact dismissed (State.freeSlot_dismisses _ i _)
      · exact dismissed (State.requeue_dismisses _ i _ _)
      · exact dismissed (State.requeue_dismisses _ i _ _)
    · exact (dismissed (State.dispose_dismisses _ i)).requestPass
    all_goals
      next waiting =>
        rw [waiting] at state
        rcases owning with is | is <;> rw [is] at state <;> cases state

/-- The scheduler's part of a disable leaves the zone without claimant (R52). -/
theorem State.ClaimLaw.disableInScheduler {s : State} (law : s.ClaimLaw nobody) (z : Zone) :
    s.ZonesKept (s.disableInScheduler z) ∧ (s.disableInScheduler z).zones[z].claimant = none := by
  have owner {t : State} (kept : s.ZonesKept t) (unclaimed : t.zones[z].claimant = none) :
      s.ZonesKept (match t.zones[z].owner with
        | some h => t.ownerLosesZone (handleSlot h) z
        | none => t)
      ∧ (match t.zones[z].owner with
        | some h => t.ownerLosesZone (handleSlot h) z
        | none => t).zones[z].claimant = none := by
    split
    · next h owns =>
      have lost := kept.law.ownerLosesZone (by rw [owns, (kept.law.owner z h owns).1] : t.zones[z].owner = _)
      exact ⟨kept.trans lost, not_not.mp fun some_ => lost.claimant z some_ unclaimed⟩
    · exact ⟨kept, unclaimed⟩
  cases claims : s.zones[z].claimant with
  | none =>
    simp only [State.disableInScheduler, claims]
    exact owner ((State.Steady.refl s).kept law) claims
  | some h =>
    obtain ⟨-, granted, -⟩ := law.claimant z h claims
    have lost := law.claimLoss granted
    simp only [State.disableInScheduler, claims]
    refine owner (lost.kept law) (Option.eq_none_iff_forall_ne_some.mpr fun a eq => ?_)
    obtain ⟨was, other⟩ := (lost.claimant z a).mp eq
    rw [claims] at was
    exact other (congrArg handleSlot (Option.some.inj was).symm)

theorem State.ZoneLaw.disableZone {s : State} (law : s.ZoneLaw) (z : Zone) : (s.disableZone z).ZoneLaw := by
  obtain ⟨claims, enabled⟩ := s.zoneLaw_iff.mp law
  have recorded : (s.setStage z { s.stages[z] with enabled := false }).ClaimLaw nobody :=
    ⟨claims.claimant, claims.owner, claims.mask, claims.onAir, claims.named⟩
  obtain ⟨kept, unclaimed⟩ := recorded.disableInScheduler z
  have done := (kept.steady (.setStage (z := z) (.refl _) (Stage.disabled_enabled _ s.zones[z].owner.isSome))).requestPass
  refine (State.zoneLaw_iff _).mpr ⟨done.law, fun w claimed => ?_⟩
  have other : w ≠ z := by rintro rfl; exact claimed unclaimed
  refine (done.enabled w).trans ?_
  rw [State.setStage_get_other _ _ _ _ other]
  exact enabled w (done.claimant w claimed)

theorem State.ZoneLaw.setEnable {s : State} (law : s.ZoneLaw) (z : Zone) (enable : Bool) :
    (s.setEnable z enable).ZoneLaw := by
  unfold State.setEnable
  split
  · exact law
  · split
    · obtain ⟨claims, enabled⟩ := s.zoneLaw_iff.mp law
      refine (State.zoneLaw_iff _).mpr
        ⟨⟨claims.claimant, claims.owner, claims.mask, claims.onAir, claims.named⟩, fun w claimed => ?_⟩
      by_cases e : w = z
      · subst e; simp [State.enableZone]
      · exact (congrArg Stage.enabled (State.setStage_get_other _ _ _ _ e)).trans (enabled w claimed)
    · exact law.disableZone z

theorem zoneSetBody_keepsZones : zoneSetBody.KeepsZones := by
  intro p s law
  unfold zoneSetBody
  split
  · split
    · exact law
    · refine State.ZoneLaw.setEnable (law.steady (.setIdleHold (.setStage (.refl s) ?_) _ _)) _ _
      rfl
  · exact law

/-! ### The commands of directory and port, and SOFT_RESET -/

theorem dirLoadBody_keepsZones : dirLoadBody.KeepsZones := by
  intro p s law
  unfold dirLoadBody
  split
  · exact law
  · split
    · exact law
    · split
      · exact law
      · exact law.steady (.of_frame rfl rfl rfl)

theorem flashConfigBody_keepsZones : flashConfigBody.KeepsZones := by
  intro p s law
  unfold flashConfigBody
  split
  · exact law
  · split
    · exact law
    · exact law.steady (.of_frame rfl rfl rfl)

theorem flashClaimBody_keepsZones : flashClaimBody.KeepsZones := by
  intro p s law
  unfold flashClaimBody
  split
  · exact law
  · split
    · exact law
    · split
      · exact law
      · exact law.steady (.of_frame rfl rfl rfl)

theorem flashReleaseBody_keepsZones : flashReleaseBody.KeepsZones := by
  intro p s law
  unfold flashReleaseBody
  split
  · exact law
  · exact law.steady (.of_frame rfl rfl rfl)
  · split <;> exact law.steady (.of_frame rfl rfl rfl)

/-- Without owner, claimant and announcement on the air the law holds. -/
theorem State.ZoneLaw.of_silent {s : State} (zones : ∀ z : Zone, s.zones[z] = { owner := none, claimant := none })
    (slots : ∀ i : SlotId, s.slots[i].OffAir) : s.ZoneLaw := by
  refine s.zoneLaw_iff.mpr ⟨⟨?_, ?_, fun i => ?_, fun i => ?_, fun i _ z mem => ?_⟩, fun z claimed => ?_⟩
  · intro z h eq; rw [zones] at eq; cases eq
  · intro z h eq; rw [zones] at eq; cases eq
  · rw [(slots i).effZones]; exact BitVec.zero_and
  · simp only [(slots i).effZones, (slots i).notGranted, (slots i).notPlaying, (slots i).notStopping, or_self, ne_eq,
      not_true]
  · rw [(slots i).effZones, inZones_empty] at mem; cases mem
  · rw [zones] at claimed; contradiction

/-- The freeing of a slot by a soft reset touches no other slot (R31). -/
theorem State.freeSlotInReset_slots (s : State) (i : SlotId) :
    (s.freeSlotInReset i).slots
      = s.slots.set i (if s.slots[i].state = .free then s.slots[i] else Slot.free (s.slots[i].generation + 1#4)) := by
  simp only [State.freeSlotInReset]
  split
  · simp
  · rfl

/-- Each slot after a soft reset's freeing of the slots of a list without repeats (R31). -/
theorem State.freeSlotsInReset_slot :
    ∀ (l : List SlotId) (s : State), l.Nodup → ∀ i : SlotId,
      (l.foldl State.freeSlotInReset s).slots[i]
        = if i ∈ l ∧ s.slots[i].state ≠ .free then Slot.free (s.slots[i].generation + 1#4) else s.slots[i]
  | [], _, _, i => by simp
  | j :: rest, s, nodup, i => by
    obtain ⟨fresh, nodup⟩ := List.nodup_cons.mp nodup
    rw [List.foldl_cons, State.freeSlotsInReset_slot rest _ nodup i]
    by_cases e : i = j
    · subst e
      have set_ : (s.freeSlotInReset i).slots[i]
          = if s.slots[i].state = .free then s.slots[i] else Slot.free (s.slots[i].generation + 1#4) := by
        simp only [State.freeSlotInReset_slots]; exact State.setSlot_get_self s i _
      simp only [fresh, false_and, if_false, set_, List.mem_cons, true_or, true_and, ne_eq, ite_not]
    · have kept : (s.freeSlotInReset j).slots[i] = s.slots[i] := by
        simp only [State.freeSlotInReset_slots]; exact State.setSlot_get_other s j i _ e
      simp only [kept, List.mem_cons, e, false_or]

/-- A soft reset touches the slots by their freeing alone (R31). -/
theorem State.softReset_slots (s : State) : s.softReset.slots = (allSlots.foldl State.freeSlotInReset s).slots := by
  have scheduled : s.softReset.slots = s.softFree.slots := by
    unfold State.softReset
    generalize s.softFree = t
    rfl
  rw [scheduled, State.softFree]

/-- A soft reset leaves no owner and no claimant (R54). -/
theorem State.softReset_zone (s : State) (z : Zone) : s.softReset.zones[z] = { owner := none, claimant := none } := by
  unfold State.softReset
  generalize s.softFree = t
  simp [State.softSchedule, State.softStages]

/-- Each slot after a soft reset (R31). -/
theorem State.softReset_slot (s : State) (i : SlotId) :
    s.softReset.slots[i]
      = if s.slots[i].state = .free then s.slots[i] else Slot.free (s.slots[i].generation + 1#4) := by
  rw [State.softReset_slots, State.freeSlotsInReset_slot allSlots s (by decide) i]
  simp only [mem_allSlots, true_and, ne_eq, ite_not]

theorem softResetBody_keepsZones : softResetBody.KeepsZones := by
  intro p s law
  rw [softResetBody]
  refine .of_silent s.softReset_zone fun i => ?_
  rw [State.softReset_slot]
  split
  · next free => exact law.claimLaw.offAir (by rw [free]; decide) (by rw [free]; decide) (by rw [free]; decide)
  · exact Slot.free_offAir _

/-! ### The mailbox and the host's bytes -/

theorem State.ZoneLaw.cmdWrite {body : Body} (keeps : body.KeepsZones) {s : State} (law : s.ZoneLaw) (code : Byte) :
    (s.cmdWrite code body).ZoneLaw := by
  unfold State.cmdWrite
  split
  · exact law.steady (.of_frame rfl rfl rfl)
  · have done := keeps (s.latchCommand code).mailbox.latched (s.latchCommand code) (law.steady (.of_frame rfl rfl rfl))
    simp only
    split
    · exact done.steady (.of_frame rfl rfl rfl)
    · exact done

/-- A data byte of the host keeps the law where its register's owning block does (R172). -/
theorem State.ZoneLaw.hostWrite {s : State} (law : s.ZoneLaw) {a : RegAddr} {act : State → State}
    (h : (act s).ZoneLaw) : (s.hostWrite a act).ZoneLaw := by
  rcases s.hostWrite_cases a act with eq | ⟨-, eq⟩ | ⟨-, -, eq⟩ <;> rw [eq]
  · exact law
  · exact h.steady (.of_frame rfl rfl rfl)
  · exact law.steady (.of_frame rfl rfl rfl)

theorem State.ZoneLaw.hostCommand {body : Body} (keeps : body.KeepsZones) {s : State} (law : s.ZoneLaw)
    (code : Byte) : (s.hostCommand code body).ZoneLaw := law.hostWrite (law.cmdWrite keeps code)

theorem badCommandBody_keepsZones : badCommandBody.KeepsZones := fun _ _ law => law

theorem commandTable_keepsZones : ∀ row ∈ commandTable, row.2.KeepsZones := by
  simp only [commandTable, List.forall_mem_cons]
  exact ⟨annOpenBody_keepsZones, annAppendBody_keepsZones, annSubmitBody_keepsZones, annCancelBody_keepsZones,
    annStatusBody_keepsZones, zoneSetBody_keepsZones, dirLoadBody_keepsZones, flashConfigBody_keepsZones,
    flashClaimBody_keepsZones, flashReleaseBody_keepsZones, softResetBody_keepsZones, nofun⟩

theorem bodyOfCode_keepsZones (code : Byte) : (bodyOfCode code).KeepsZones := by
  unfold bodyOfCode
  cases found : commandTable.lookup code with
  | none => exact badCommandBody_keepsZones
  | some body =>
    obtain ⟨before, after, eq, -⟩ := List.lookup_eq_some_iff.mp found
    exact commandTable_keepsZones (code, body) (by simp [eq])

theorem State.ZoneLaw.writeRegister {s : State} (law : s.ZoneLaw) (a : RegAddr) (v : Byte) :
    (s.writeRegister a v).ZoneLaw := by
  unfold State.writeRegister
  split
  · exact law.steady (.of_frame rfl rfl rfl)
  · split
    · exact law.cmdWrite (bodyOfCode_keepsZones v) v
    · repeat' split
      all_goals exact law.steady (.of_frame rfl rfl rfl)

end Sys2Proof.Machine

/-! ## The law of zones under the part's own events, and under every step -/

namespace Sys2Proof.Machine

/-! ### The scheduling pass -/

/-- The zones of a list get the announcement as claimant, and nothing else of owners, announcements and enables
changes (R37). -/
theorem Pass.claimZones_claims (h : Handle) :
    ∀ (l : List Zone) (p : Pass),
      (l.foldl (fun q z => q.claimZone h z) p).state.slots = p.state.slots
        ∧ (∀ z : Zone, (l.foldl (fun q z => q.claimZone h z) p).state.zones[z]
            = { owner := p.state.zones[z].owner, claimant := if z ∈ l then some h else p.state.zones[z].claimant })
        ∧ ∀ z : Zone, (l.foldl (fun q z => q.claimZone h z) p).state.stages[z].enabled = p.state.stages[z].enabled
  | [], p => ⟨rfl, fun z => by simp, fun _ => rfl⟩
  | y :: rest, p => by
    have one : (p.claimZone h y).state.slots = p.state.slots
        ∧ (∀ z : Zone, (p.claimZone h y).state.zones[z]
            = { owner := p.state.zones[z].owner, claimant := if z = y then some h else p.state.zones[z].claimant })
        ∧ ∀ z : Zone, (p.claimZone h y).state.stages[z].enabled = p.state.stages[z].enabled := by
      unfold Pass.claimZone
      split
      · next claimed =>
        refine ⟨rfl, fun z => ?_, fun _ => rfl⟩
        split
        · next e => subst e; exact congrArg (ZoneRec.mk p.state.zones[z].owner) claimed
        · rfl
      · refine ⟨rfl, fun z => ?_, fun z => ?_⟩
        · by_cases e : z = y
          · subst e; simp
          · simp only [State.setStage_zones, State.setZone_get_other _ _ _ _ e, if_neg e]
        · by_cases e : z = y
          · subst e; simp
          · simp only [State.setStage_get_other _ _ _ _ e, State.setZone_stages]
    obtain ⟨slots1, zones1, enabled1⟩ := one
    obtain ⟨slots, zones, enabled⟩ := Pass.claimZones_claims h rest (p.claimZone h y)
    rw [List.foldl_cons]
    refine ⟨slots.trans slots1, fun z => ?_, fun z => (enabled z).trans (enabled1 z)⟩
    rw [zones, zones1]
    by_cases e : z = y <;> simp [e]

/-- Announcement j is displaced by the grant of the zones to announcement i (R37). -/
def State.Displaced (s : State) (i : SlotId) (zs : ZoneSet) (j : SlotId) : Prop :=
  j ≠ i ∧ s.slots[j].state = .granted ∧ s.slots[j].effZones &&& zs ≠ 0#4

/-- A candidate that is granted its effective mask claims it; the announcements it displaces are left without these
claims (R37). -/
theorem State.ClaimLaw.granted {s t : State} (law : s.ZoneLaw) {i : SlotId}
    (candidate : s.slots[i].state = .queued ∨ s.slots[i].state = .granted) (some_ : s.effectiveMask i ≠ 0#4)
    (slots : t.slots = s.slots.set i { s.slots[i] with state := .granted, effZones := s.effectiveMask i })
    (zones : ∀ z : Zone, t.zones[z] =
      { owner := s.zones[z].owner
        claimant := if inZones (s.effectiveMask i) z then some (s.handleAt i) else s.zones[z].claimant }) :
    t.ClaimLaw (t.Displaced i (s.effectiveMask i)) := by
  obtain ⟨claims, enabled⟩ := s.zoneLaw_iff.mp law
  have self : t.slots[i] = { s.slots[i] with state := .granted, effZones := s.effectiveMask i } := by simp [slots]
  have other {j : SlotId} (e : j ≠ i) : t.slots[j] = s.slots[j] := by
    rw [slots]; exact s.setSlot_get_other i j _ e
  have handle (j : SlotId) : t.handleAt j = s.handleAt j := by
    by_cases e : j = i
    · subst e; simp only [State.handleAt, self]
    · simp only [State.handleAt, other e]
  have within (z : Zone) (h : Handle) (eq : s.zones[z].claimant = some h) (at_ : handleSlot h = i) :
      inZones (s.effectiveMask i) z = true := by
    have mem := (claims.claimant z h eq).2.2
    simp only [at_] at mem
    rw [State.effectiveMask, inZones_and, s.inZones_enabledZones, Bool.and_eq_true]
    exact ⟨zoneSet_within_iff.mp (claims.mask i) z mem, enabled z (by rw [eq]; nofun)⟩
  constructor
  · intro z h eq
    rw [zones] at eq
    by_cases mem : inZones (s.effectiveMask i) z = true
    · simp only [mem, if_true] at eq
      obtain rfl := Option.some.inj eq
      simpa only [handleSlot_handleAt, handle, self, true_and] using mem
    · simp only [mem] at eq
      have e : handleSlot h ≠ i := fun at_ => mem (within z h eq at_)
      rw [handle, other e]
      exact claims.claimant z h eq
  · intro z h eq
    rw [zones] at eq
    have e : handleSlot h ≠ i := by
      intro at_
      rcases (claims.owner_at eq at_).2 with is | is <;> rw [is] at candidate <;> simp at candidate
    rw [handle, other e]
    exact claims.owner z h eq
  · intro j
    by_cases e : j = i
    · subst e
      rw [self, zoneSet_within_iff]
      intro z mem
      rw [State.effectiveMask, inZones_and, Bool.and_eq_true] at mem
      exact mem.1
    · rw [other e]; exact claims.mask j
  · intro j
    by_cases e : j = i
    · subst e; rw [self]; exact iff_of_true (.inl rfl) some_
    · rw [other e]; exact claims.onAir j
  · intro j kept z mem
    rw [handle, zones]
    by_cases e : j = i
    · subst e
      rw [self] at mem ⊢
      exact .inl ⟨rfl, if_pos mem⟩
    · rw [other e] at mem ⊢
      refine (claims.named j id z mem).imp_left fun ⟨granted, eq⟩ => ⟨granted, ?_⟩
      have apart : s.slots[j].effZones &&& s.effectiveMask i = 0#4 := by
        refine not_not.mp fun meet => kept ⟨e, ?_⟩
        rw [other e]
        exact ⟨granted, meet⟩
      simp only [zoneSet_disjoint_iff.mp apart z mem, Bool.false_eq_true, if_false, eq]

/-- A PLAYING owner that is preempted keeps its zones (R38). -/
theorem State.Steady.preemptOwner {s t : State} (h : s.Steady t) (a : Handle) (z : Zone) :
    s.Steady (t.preemptOwner a z) := by
  unfold State.preemptOwner
  split
  · exact h
  · split
    · next playing => exact h.enterStopping playing _
    · exact h

/-- Announcements that a steady step leaves are displaced as they were. -/
theorem State.Steady.displaced {s t : State} (h : s.Steady t) {i : SlotId} {zs : ZoneSet} {j : SlotId} :
    t.Displaced i zs j ↔ s.Displaced i zs j := by
  rw [State.Displaced, State.Displaced, (h.slots j).granted, (h.slots j).effZones]

/-- The displaced announcements of a list lose their claims: the law of claims holds of all, no zone is claimed afresh
and the enables stand (R37, R39). -/
theorem State.ClaimLaw.displace (i : SlotId) (zs : ZoneSet) :
    ∀ (l : List SlotId) (s : State), s.ClaimLaw (fun j => j ∈ l ∧ s.Displaced i zs j) →
      s.ZonesKept (l.foldl (fun u j => u.displace i zs j) s)
  | [], s, law => (State.Steady.refl s).kept (law.mono fun _ h => by simp at h)
  | j :: rest, s, law => by
    rw [List.foldl_cons]
    by_cases displaced : s.Displaced i zs j
    · have lost := law.claimLoss displaced.2.1
      have step : s.displace i zs j = s.claimLoss j := if_pos displaced
      have law' : (s.claimLoss j).ClaimLaw fun k => k ∈ rest ∧ (s.claimLoss j).Displaced i zs k := by
        refine (lost.claimLaw law).mono ?_
        rintro k ⟨⟨mem, was⟩, e⟩
        refine ⟨(List.mem_cons.mp mem).resolve_left e, ?_⟩
        rw [State.Displaced, (lost.others k e).granted, (lost.others k e).effZones]
        exact was
      rw [step]
      have later := State.ClaimLaw.displace i zs rest _ law'
      refine ⟨later.law, fun z some_ => ?_, fun z => (later.enabled z).trans (lost.enabled z)⟩
      obtain ⟨h, eq⟩ := Option.ne_none_iff_exists'.mp (later.claimant z some_)
      rw [((lost.claimant z h).mp eq).1]
      nofun
    · have step : s.displace i zs j = s := if_neg displaced
      rw [step]
      refine State.ClaimLaw.displace i zs rest s (law.mono ?_)
      rintro k ⟨mem, was⟩
      refine ⟨(List.mem_cons.mp mem).resolve_left ?_, was⟩
      rintro rfl
      exact displaced was

/-- A grant keeps the law of zones (R37 to R39). -/
theorem Pass.grant_zoneLaw {p : Pass} (law : p.state.ZoneLaw) {i : SlotId}
    (candidate : p.state.slots[i].state = .queued ∨ p.state.slots[i].state = .granted)
    (some_ : p.state.effectiveMask i ≠ 0#4) : (p.grant i (p.state.effectiveMask i)).state.ZoneLaw := by
  obtain ⟨-, enabled⟩ := p.state.zoneLaw_iff.mp law
  obtain ⟨slots1, zones1, enabled1⟩ := Pass.claimZones_claims (p.state.handleAt i)
    (zonesOf (p.state.effectiveMask i))
    { p with
      state := p.state.setSlot i { p.state.slots[i] with state := .granted, effZones := p.state.effectiveMask i }
      reserved := p.reserved ||| p.state.effectiveMask i }
  simp only [Pass.grant]
  generalize (zonesOf (p.state.effectiveMask i)).foldl (fun (q : Pass) z => q.claimZone (p.state.handleAt i) z) _
    = claimed at slots1 zones1 enabled1 ⊢
  simp only [mem_zonesOf] at zones1
  have claims : claimed.state.ClaimLaw (claimed.state.Displaced i (p.state.effectiveMask i)) :=
    State.ClaimLaw.granted law candidate some_ slots1 zones1
  have preempted : claimed.state.Steady ((zonesOf (p.state.effectiveMask i)).foldl
      (fun u z => u.preemptOwner (p.state.handleAt i) z) claimed.state) :=
    List.foldlRecOn _ _ (.refl _) fun u hu z _ => hu.preemptOwner _ z
  have kept := State.ClaimLaw.displace i (p.state.effectiveMask i) allSlots _
    ((preempted.claimLaw claims).mono fun j h => ⟨mem_allSlots j, preempted.displaced.mpr h⟩)
  refine (State.zoneLaw_iff _).mpr ⟨kept.law, fun z claimed_ => ?_⟩
  have was := kept.claimant z claimed_
  rw [kept.enabled, preempted.enabled, enabled1]
  rw [preempted.zones, zones1] at was
  by_cases mem : inZones (p.state.effectiveMask i) z = true
  · rw [State.effectiveMask, inZones_and, State.inZones_enabledZones, Bool.and_eq_true] at mem
    exact mem.2
  · simp only [mem] at was
    exact enabled z was

theorem State.ZoneLaw.loseIfGranted {s : State} (law : s.ZoneLaw) (i : SlotId) : (s.loseIfGranted i).ZoneLaw := by
  unfold State.loseIfGranted
  split
  · next granted => exact law.keep fun claims => (claims.claimLoss granted).kept claims
  · exact law

/-- A visit to a candidate keeps the law of zones (R35). -/
theorem Pass.visit_zoneLaw {p : Pass} (law : p.state.ZoneLaw) {i : SlotId}
    (was : p.state.slots[i].state.candidate = true) : (p.visit i).state.ZoneLaw := by
  simp only [Pass.visit]
  split
  · exact law.loseIfGranted i
  · next some_ =>
    split
    · exact Pass.grant_zoneLaw law ((AnnState.candidate_iff _).mp was) some_
    · exact law.loseIfGranted i

theorem State.ZoneLaw.takePass {s : State} (law : s.ZoneLaw) : s.takePass.ZoneLaw := by
  unfold State.takePass
  split
  · have visited : (s.candidates.foldl Pass.visit
        { state := { s with passPending := false }, reserved := 0#4, ready := [] }).state.ZoneLaw := by
      refine And.right (List.foldlRecOn (motive := fun p : Pass => s.InPass p.state ∧ p.state.ZoneLaw) _ _ ⟨?_, ?_⟩ ?_)
      · exact State.Quiet.inPass_of_slots (.of_frame rfl rfl rfl rfl rfl rfl) rfl
      · exact law.steady (.of_frame rfl rfl rfl)
      · rintro p ⟨hp, hl⟩ i hi
        have candidate := hp.candidate i (State.candidate_of_mem hi)
        exact ⟨hp.trans (Pass.visit_inPass candidate), Pass.visit_zoneLaw hl candidate⟩
    simp only
    generalize s.candidates.foldl Pass.visit _ = done at visited ⊢
    have checked : done.state.Steady (allSlots.foldl State.startCheck done.state) :=
      List.foldlRecOn _ _ (.refl _) fun u hu i _ => hu.startCheck i
    generalize allSlots.foldl State.startCheck done.state = u at checked ⊢
    exact (visited.steady checked).steady (.of_frame rfl rfl rfl)
  · exact law

/-! ### Starts, expiries, fade ends and completions -/

/-- The zones of a starting announcement's list get it as owner, without claimant, and their idle timers stop
(R42, R124). -/
theorem State.takeZones_list (h : Handle) :
    ∀ (l : List Zone) (s : State), l.Nodup →
      ∃ (zones : Vector ZoneRec 4) (stages : Vector Stage 4),
        l.foldl (fun u z => u.takeZone h z) s = { s with zones := zones, stages := stages }
          ∧ ∀ z : Zone,
              zones[z] = (if z ∈ l then { owner := some h, claimant := none } else s.zones[z])
              ∧ stages[z] = (if z ∈ l then { s.stages[z] with idleTimer := none } else s.stages[z])
  | [], s, _ => ⟨s.zones, s.stages, rfl, by simp⟩
  | y :: rest, s, nodup => by
    obtain ⟨fresh, nodup⟩ := List.nodup_cons.mp nodup
    obtain ⟨zones, stages, eq, at_⟩ := State.takeZones_list h rest (s.takeZone h y) nodup
    refine ⟨zones, stages, eq, fun z => ?_⟩
    obtain ⟨hz, hg⟩ := at_ z
    rw [hz, hg]
    by_cases e : z = y
    · subst e; simp [fresh, State.takeZone]
    · have ne : ¬ (y : Nat) = z := fun q => e (Fin.ext q.symm)
      simp [e, ne, State.takeZone]

/-- An announcement is ready to start where it is GRANTED and all its effective zones are ready (R41). -/
theorem State.readyToStart_iff (s : State) (i : SlotId) :
    s.readyToStart i = true ↔ s.slots[i].state = .granted ∧ s.zonesReady s.slots[i].effZones := by
  simp only [State.readyToStart, Bool.and_eq_true, beq_iff_eq, List.all_eq_true, mem_allZones, forall_const,
    Bool.or_eq_true, Bool.not_eq_true', Option.isNone_iff_eq_none, State.zonesReady]
  refine and_congr_right fun _ => forall_congr' fun z => ?_
  cases inZones s.slots[i].effZones z <;> simp [and_assoc]

/-- Everything a start does (R42, R57): the engine that is bound, the announcement's record, and its zones. -/
theorem State.startOn_eq (s : State) (i : SlotId) (e : EngineId) :
    ∃ (zones : Vector ZoneRec 4) (stages : Vector Stage 4),
      s.startOn i e = { s with
          engines := s.engines.set e (bindEngine s.dir s.engines[e] s.slots[i] (s.handleAt i)).eng
          slots := s.slots.set i
            { (bindEngine s.dir s.engines[e] s.slots[i] (s.handleAt i)).slot with
              state := .playing, engine := some e, deadline := none, resume := none, startDue := false }
          zones := zones, stages := stages
          events := s.events.offer
            (EventRecord.started (s.handleAt i) s.slots[i].tag s.slots[i].effZones s.slots[i].playPos) }
        ∧ ∀ z : Zone,
            zones[z] = (if inZones s.slots[i].effZones z then { owner := some (s.handleAt i), claimant := none }
              else s.zones[z])
            ∧ stages[z] = (if inZones s.slots[i].effZones z then { s.stages[z] with idleTimer := none }
              else s.stages[z]) := by
  obtain ⟨zones, stages, eq, at_⟩ := State.takeZones_list (s.handleAt i) (zonesOf s.slots[i].effZones)
    ((s.setEngine e (bindEngine s.dir s.engines[e] s.slots[i] (s.handleAt i)).eng).setSlot i
      { (bindEngine s.dir s.engines[e] s.slots[i] (s.handleAt i)).slot with
        state := .playing, engine := some e, deadline := none, resume := none, startDue := false })
    (zonesOf_nodup _)
  refine ⟨zones, stages, ?_, fun z => ?_⟩
  · simp only [State.startOn, eq]
    rfl
  · simpa [mem_zonesOf] using at_ z

/-- A ready announcement that starts owns the zones it claimed (R41, R42). -/
theorem State.ClaimLaw.startOn {s : State} (law : s.ClaimLaw nobody) {i : SlotId} (ready : s.readyToStart i = true)
    (e : EngineId) : s.ZonesKept (s.startOn i e) := by
  obtain ⟨granted, zonesReady⟩ := (s.readyToStart_iff i).mp ready
  obtain ⟨zones, stages, eq, at_⟩ := s.startOn_eq i e
  obtain ⟨l, slot⟩ := bindEngine_slot s.dir s.engines[e] s.slots[i] (s.handleAt i)
  rw [slot] at eq
  generalize s.startOn i e = t at eq ⊢
  have self : t.slots[i] = { s.slots[i] with
      segments := l, state := .playing, engine := some e, deadline := none, resume := none, startDue := false } := by
    rw [eq]; exact State.setSlot_get_self s i _
  have other {j : SlotId} (e : j ≠ i) : t.slots[j] = s.slots[j] := by
    rw [eq]; exact State.setSlot_get_other s i j _ e
  have zone (z : Zone) : t.zones[z] = if inZones s.slots[i].effZones z
      then { owner := some (s.handleAt i), claimant := none } else s.zones[z] := by
    rw [eq]; exact (at_ z).1
  have handle (j : SlotId) : t.handleAt j = s.handleAt j := by
    by_cases e : j = i
    · subst e; simp only [State.handleAt, self]
    · simp only [State.handleAt, other e]
  refine ⟨⟨fun z h claimed => ?_, fun z h owned => ?_, fun j => ?_, fun j => ?_, fun j _ z mem => ?_⟩, fun z => ?_,
    fun z => ?_⟩
  · rw [zone] at claimed
    by_cases mem : inZones s.slots[i].effZones z = true
    · rw [if_pos mem] at claimed; cases claimed
    · simp only [mem] at claimed
      have claims := law.claimant z h claimed
      have e : handleSlot h ≠ i := by rintro rfl; exact mem claims.2.2
      rw [handle, other e]
      exact claims
  · rw [zone] at owned
    by_cases mem : inZones s.slots[i].effZones z = true
    · simp only [mem, if_true] at owned
      obtain rfl := Option.some.inj owned
      simpa only [handleSlot_handleAt, handle, self, true_and, true_or] using mem
    · simp only [mem] at owned
      have e : handleSlot h ≠ i := by
        intro at_
        rcases (law.owner_at owned at_).2 with is | is <;> rw [granted] at is <;> cases is
      rw [handle, other e]
      exact law.owner z h owned
  · by_cases e : j = i
    · subst e; rw [self]; exact law.mask j
    · rw [other e]; exact law.mask j
  · by_cases e : j = i
    · subst e; rw [self]; exact iff_of_true (.inr (.inl rfl)) ((law.onAir j).mp (.inl granted))
    · rw [other e]; exact law.onAir j
  · rw [handle, zone]
    by_cases e : j = i
    · subst e
      rw [self] at mem ⊢
      exact .inr ⟨by simp, by rw [if_pos mem]⟩
    · rw [other e] at mem ⊢
      have apart : ¬ inZones s.slots[i].effZones z = true := by
        intro both
        rcases law.named j id z mem with ⟨-, claimed⟩ | ⟨-, owned⟩
        · have mine := (law.claims_iff id granted z).mp both
          exact e (State.handleAt_inj (Option.some.inj (claimed.symm.trans mine)))
        · rw [(zonesReady z both).1] at owned
          cases owned
      rw [if_neg apart]
      exact law.named j id z mem
  · rw [zone]
    split
    · exact fun h => absurd rfl h
    · exact id
  · rw [eq]
    simp only [(at_ z).2]
    split <;> rfl

theorem State.ZoneLaw.takeStart {s : State} (law : s.ZoneLaw) (i : SlotId) : (s.takeStart i).ZoneLaw := by
  have dropped : (s.setSlot i { s.slots[i] with startDue := false }).ZoneLaw :=
    law.steady (.setSlot (.refl s) (.of_eq rfl rfl rfl rfl))
  unfold State.takeStart
  split
  · simp only
    split
    · next ready =>
      split
      · exact law.keep fun claims => claims.startOn ready _
      · exact dropped
    · exact dropped
  · exact law

theorem State.ZoneLaw.takeExpiry {s : State} (law : s.ZoneLaw) (i : SlotId) : (s.takeExpiry i).ZoneLaw := by
  unfold State.takeExpiry
  split
  · next due =>
    have candidate := (AnnState.candidate_iff _).mp (Bool.and_eq_true_iff.mp due).1
    have playing : s.slots[i].state ≠ .playing := by rcases candidate with is | is <;> rw [is] <;> decide
    have stopping : s.slots[i].state ≠ .stopping := by rcases candidate with is | is <;> rw [is] <;> decide
    exact law.keep fun claims => ((claims.withdrawn playing stopping _).kept claims).requestPass
  · exact law

theorem State.ZoneLaw.takeFadeEnd {s : State} (law : s.ZoneLaw) (e : EngineId) : (s.takeFadeEnd e).ZoneLaw := by
  unfold State.takeFadeEnd
  split
  · exact law
  · split
    · next stopping => exact law.keep fun claims => (claims.endFade stopping.1).kept claims
    · exact law.steady (.of_frame rfl rfl rfl)

theorem State.ZoneLaw.takeCompletion {s : State} (law : s.ZoneLaw) (e : EngineId) : (s.takeCompletion e).ZoneLaw := by
  unfold State.takeCompletion
  split
  · exact law
  · next i _ =>
    split
    · next playing =>
      have notGranted : s.slots[i].state ≠ .granted := by rw [playing.1]; decide
      exact law.keep fun claims =>
        ((claims.gaveUp notGranted (State.freeSlot_dismisses _ i _)).kept claims).requestPass
    · exact law.steady (.of_frame rfl rfl rfl)

/-! ### Zone stages and ticks -/

theorem State.takeIdleExpiry_steady (s : State) (z : Zone) : s.Steady (s.takeIdleExpiry z) := by
  unfold State.takeIdleExpiry
  split
  · exact .setStage (.refl s) rfl
  · exact .refl s

theorem State.takeZoneFadeEnd_steady (s : State) (z : Zone) : s.Steady (s.takeZoneFadeEnd z) := by
  unfold State.takeZoneFadeEnd
  split
  · exact .refl s
  · next f _ =>
    split
    · exact .refl s
    · have ended : s.Steady (s.setStage z { s.stages[z] with fade := none }) := .setStage (.refl s) rfl
      simp only
      split
      · exact ended.startCheckZone z
      · unfold State.afterZoneFade
        split
        · exact ended.settleIdle z
        · exact ended.setStage (Stage.rampDownNow_enabled _)
        · exact ended.setStage (Stage.rampDownNow_enabled _)

theorem State.takeBiasReady_steady (s : State) (z : Zone) : s.Steady (s.takeBiasReady z) := by
  have ready : s.Steady ((s.setStage z { s.stages[z] with bias := .ready }).offer (EventRecord.zone z .ready)) :=
    .trans (.setStage (z := z) (x := { s.stages[z] with bias := .ready }) (.refl s) rfl) (.of_frame rfl rfl rfl)
  unfold State.takeBiasReady
  split
  · simp only
    split
    · exact ready.startCheckZone z
    · exact ready.settleIdle z
  · exact .refl s

theorem State.takeBiasOff_steady (s : State) (z : Zone) : s.Steady (s.takeBiasOff z) := by
  unfold State.takeBiasOff
  split
  · exact .trans (.setStage (z := z) (x := { s.stages[z] with bias := .off }) (.refl s) rfl) (.of_frame rfl rfl rfl)
  · exact .refl s

/-- A tick lowers a deadline alone (R44). -/
theorem Slot.tick_sameClaims (a : Slot) : a.SameClaims a.tick := by
  unfold Slot.tick
  split
  · exact .of_eq rfl rfl rfl rfl
  · exact .refl a

theorem State.takeTick_steady (s : State) : s.Steady s.takeTick := by
  unfold State.takeTick
  split
  · exact .refl s
  · refine ⟨rfl, fun z => ?_, fun i => ?_⟩
    · simp [State.countTick, Stage.tick]
    · simpa [State.countTick] using s.slots[i].tick_sameClaims

theorem State.takeSlew_steady (s : State) : s.Steady s.takeSlew := by
  unfold State.takeSlew
  split
  · exact .refl s
  · exact ⟨rfl, fun z => by simp [State.slewAll, Stage.slew_eq], fun _ => .refl _⟩

/-! ### Directory and port -/

theorem State.Steady.setPort {s t : State} (h : s.Steady t) (x : Port) : s.Steady (t.setPort x) :=
  h.trans (.of_frame rfl rfl rfl)

theorem State.takeDirHeader_steady (s : State) (data : List Byte) : s.Steady (s.takeDirHeader data) := by
  simp only [State.takeDirHeader]
  repeat' split
  all_goals exact .of_frame rfl rfl rfl

theorem State.takeDirEntries_steady (s : State) (p : LoadProgress) (data : List Byte) :
    s.Steady (s.takeDirEntries p data) := by
  simp only [State.takeDirEntries, State.endLoad]
  repeat' split
  all_goals exact .of_frame rfl rfl rfl

theorem State.takeLoaderArrival_steady (s : State) (data : List Byte) : s.Steady (s.takeLoaderArrival data) := by
  have taken (number : BitVec 8) (bytes : List Byte) :
      s.Steady ((s.setPort s.port.arrived).takeLoaderData number bytes) := by
    have arrived := (State.Steady.refl s).setPort s.port.arrived
    unfold State.takeLoaderData
    split
    · split
      · exact arrived
      · split
        · exact arrived.trans (State.takeDirHeader_steady _ _)
        · exact arrived.trans (State.takeDirEntries_steady _ _ _)
    · exact arrived
  unfold State.takeLoaderArrival
  split
  · split
    · split
      · exact taken _ _
      · exact .refl s
    · exact .refl s
  · exact .refl s

theorem State.arbitrate_steady (s : State) : s.Steady s.arbitrate := by
  unfold State.arbitrate
  split
  · next mode _ => cases mode <;> exact .of_frame rfl rfl rfl
  · split
    · unfold State.grantEngine
      split <;> exact .of_frame rfl rfl rfl
    · unfold State.grantLoader
      repeat' split
      all_goals exact .of_frame rfl rfl rfl

theorem State.takeGrant_steady (s : State) : s.Steady s.takeGrant := by
  rcases s.takeGrant_cases with ⟨-, eq⟩ | ⟨-, -, -, eq⟩ | ⟨-, eq⟩ <;> rw [eq]
  · exact s.arbitrate_steady
  · exact ((State.Steady.refl s).setPort _).trans (State.arbitrate_steady _)
  · exact .refl s

theorem State.takeHoldExpiry_steady (s : State) : s.Steady s.takeHoldExpiry := by
  unfold State.takeHoldExpiry
  repeat' split
  all_goals exact .of_frame rfl rfl rfl

theorem State.takeByteEnd_steady (s : State) (received : Byte) : s.Steady (s.takeByteEnd received) := by
  have ended (t : State) : t.Steady t.completeEnd.endWaitingRelease := by
    have completed : t.Steady t.completeEnd := by
      unfold State.completeEnd
      split <;> exact .of_frame rfl rfl rfl
    unfold State.endWaitingRelease
    split
    · exact completed.trans (.of_frame rfl rfl rfl)
    · exact completed
  unfold State.takeByteEnd
  split
  · exact .refl s
  · exact ((State.Steady.refl s).setPort _).trans (ended _)

/-! ### Frames and the engines' own events -/

theorem State.takeEngineArrival_steady (s : State) (data : List Byte) : s.Steady (s.takeEngineArrival data) := by
  have taken (e : EngineId) (epoch : BitVec 8) (bytes : List Byte) :
      s.Steady ((s.setPort s.port.arrived).takeEngineData e epoch bytes) := by
    unfold State.takeEngineData
    split
    · exact .of_frame rfl rfl rfl
    · split
      · exact .of_frame rfl rfl rfl
      · exact .of_set rfl (Bound.takeArrival_played { eng := s.engines[e], slot := s.slots[_] } _ _).sameClaims rfl rfl
  unfold State.takeEngineArrival
  split
  · split
    · split
      · exact taken _ _ _
      · exact .refl s
    · exact .refl s
  · exact .refl s

theorem State.takeGapEnd_steady (s : State) (e : EngineId) : s.Steady (s.takeGapEnd e) := by
  unfold State.takeGapEnd
  split <;> exact .of_frame rfl rfl rfl

theorem State.takeRepeatGapEnd_steady (s : State) (e : EngineId) : s.Steady (s.takeRepeatGapEnd e) := by
  unfold State.takeRepeatGapEnd
  split <;> exact .of_frame rfl rfl rfl

@[simp] theorem Stage.frame_enabled (g : Stage) (owned : Option Int) : (g.frame owned).enabled = g.enabled := by
  simp only [Stage.frame, Stage.rampFrame_eq]
  repeat' split
  all_goals rfl

theorem State.takeFrame_steady (s : State) : s.Steady s.takeFrame := by
  refine ⟨by rw [State.takeFrame_eq], fun z => ?_, fun i => (s.takeFrame_played i).sameClaims⟩
  rw [State.takeFrame_stage, Stage.frame_enabled]

/-! ### Every step -/

theorem State.ZoneLaw.whenRunning {s : State} (law : s.ZoneLaw) {act : State → State} (h : (act s).ZoneLaw) :
    (s.whenRunning act).ZoneLaw := by
  unfold State.whenRunning
  split
  · exact law
  · exact h

/-- An event of the part's own that changes no claim. -/
theorem State.Steady.whenRunning {s : State} {act : State → State} (h : s.Steady (act s)) (law : s.ZoneLaw) :
    (s.whenRunning act).ZoneLaw := law.whenRunning (law.steady h)

/-- A write of the host to the event queue, the port or the mailbox. -/
theorem State.Steady.hostWrite {s : State} {a : RegAddr} {act : State → State} (h : s.Steady (act s))
    (law : s.ZoneLaw) : (s.hostWrite a act).ZoneLaw := law.hostWrite (law.steady h)

theorem State.fallHcs_steady (s : State) : s.Steady s.fallHcs := by
  unfold State.fallHcs
  repeat' split
  all_goals exact .of_frame rfl rfl rfl

theorem State.takeAddress_steady (s : State) (b : Byte) : s.Steady (s.takeAddress b) := by
  unfold State.takeAddress
  repeat' split
  all_goals exact .of_frame rfl rfl rfl

/-- The reset values meet the law of zones (R30, R54). -/
theorem State.ZoneLaw.of_reset {s : State} (slots : s.slots = State.reset.slots) (zones : s.zones = State.reset.zones) :
    s.ZoneLaw :=
  .of_silent (fun z => by simp [zones, State.reset]) fun i => by
    have : s.slots[i] = Slot.free 0#4 := by simp [slots, State.reset]
    rw [this]
    exact Slot.free_offAir _

/-- Every command keeps the law of zones. -/
theorem exec_zoneLaw (c : Instr) {s : State} (law : s.ZoneLaw) : ∃ t, exec c s = .next t ∧ t.ZoneLaw := by
  cases c with
  | annOpen => exact ⟨_, rfl, law.hostCommand annOpenBody_keepsZones _⟩
  | annAppend => exact ⟨_, rfl, law.hostCommand annAppendBody_keepsZones _⟩
  | annSubmit => exact ⟨_, rfl, law.hostCommand annSubmitBody_keepsZones _⟩
  | annCancel => exact ⟨_, rfl, law.hostCommand annCancelBody_keepsZones _⟩
  | annStatus => exact ⟨_, rfl, law.hostCommand annStatusBody_keepsZones _⟩
  | zoneSet => exact ⟨_, rfl, law.hostCommand zoneSetBody_keepsZones _⟩
  | dirLoad => exact ⟨_, rfl, law.hostCommand dirLoadBody_keepsZones _⟩
  | flashConfig => exact ⟨_, rfl, law.hostCommand flashConfigBody_keepsZones _⟩
  | flashClaim => exact ⟨_, rfl, law.hostCommand flashClaimBody_keepsZones _⟩
  | flashRelease => exact ⟨_, rfl, law.hostCommand flashReleaseBody_keepsZones _⟩
  | softReset => exact ⟨_, rfl, law.hostCommand softResetBody_keepsZones _⟩
  | badCommand code =>
    refine ⟨_, rfl, ?_⟩
    split
    · exact law
    · exact law.hostCommand badCommandBody_keepsZones _
  | cmdWriteDiscarded code =>
    refine ⟨_, rfl, ?_⟩
    split
    · exact State.Steady.hostWrite (.of_frame rfl rfl rfl) law
    · exact law
  | registerWrite a v => exact ⟨_, rfl, law.hostWrite (law.writeRegister a v)⟩
  | evpop v => exact ⟨_, rfl, State.Steady.hostWrite (.of_frame rfl rfl rfl) law⟩
  | evmskWrite reg v => exact ⟨_, rfl, State.Steady.hostWrite (.of_frame rfl rfl rfl) law⟩
  | irqcWrite v => exact ⟨_, rfl, State.Steady.hostWrite (.of_frame rfl rfl rfl) law⟩
  | ptctlWrite v => exact ⟨_, rfl, State.Steady.hostWrite (.of_frame rfl rfl rfl) law⟩
  | ptdatWrite v => exact ⟨_, rfl, State.Steady.hostWrite (.of_frame rfl rfl rfl) law⟩
  | ptByteEnd received => exact ⟨_, rfl, State.Steady.whenRunning (s.takeByteEnd_steady received) law⟩
  | powerOnReset => exact ⟨_, rfl, .of_reset rfl rfl⟩
  | pinReset => exact ⟨_, rfl, .of_reset rfl rfl⟩
  | frame => exact ⟨_, rfl, s.takeFrame_steady.whenRunning law⟩
  | tick => exact ⟨_, rfl, s.takeTick_steady.whenRunning law⟩
  | volumeSlewStep => exact ⟨_, rfl, s.takeSlew_steady.whenRunning law⟩
  | deadlineExpiry i => exact ⟨_, rfl, law.whenRunning (law.takeExpiry i)⟩
  | idleTimerExpiry z => exact ⟨_, rfl, State.Steady.whenRunning (s.takeIdleExpiry_steady z) law⟩
  | holdExpiry => exact ⟨_, rfl, s.takeHoldExpiry_steady.whenRunning law⟩
  | schedulingPass => exact ⟨_, rfl, law.whenRunning law.takePass⟩
  | start i => exact ⟨_, rfl, law.whenRunning (law.takeStart i)⟩
  | engineFadeDone e => exact ⟨_, rfl, State.Steady.whenRunning (.of_frame rfl rfl rfl) law⟩
  | fadeEnd e => exact ⟨_, rfl, law.whenRunning (law.takeFadeEnd e)⟩
  | completion e => exact ⟨_, rfl, law.whenRunning (law.takeCompletion e)⟩
  | zoneFadeEnd z => exact ⟨_, rfl, State.Steady.whenRunning (s.takeZoneFadeEnd_steady z) law⟩
  | biasReady z => exact ⟨_, rfl, State.Steady.whenRunning (s.takeBiasReady_steady z) law⟩
  | biasOff z => exact ⟨_, rfl, State.Steady.whenRunning (s.takeBiasOff_steady z) law⟩
  | gapEnd e => exact ⟨_, rfl, State.Steady.whenRunning (s.takeGapEnd_steady e) law⟩
  | repeatGapEnd e => exact ⟨_, rfl, State.Steady.whenRunning (s.takeRepeatGapEnd_steady e) law⟩
  | portGrant => exact ⟨_, rfl, s.takeGrant_steady.whenRunning law⟩
  | engineBurstArrival data => exact ⟨_, rfl, State.Steady.whenRunning (s.takeEngineArrival_steady data) law⟩
  | loaderBurstArrival data => exact ⟨_, rfl, State.Steady.whenRunning (s.takeLoaderArrival_steady data) law⟩
  | resetnHeldLow => exact ⟨_, rfl, .of_reset rfl rfl⟩
  | hcsFall => exact ⟨_, rfl, law.steady s.fallHcs_steady⟩
  | addressByte b => exact ⟨_, rfl, State.Steady.whenRunning (s.takeAddress_steady b) law⟩
  | hcsRise => exact ⟨_, rfl, law.steady (.of_frame rfl rfl rfl)⟩

/-- Settles O59: most rows change no owner, claimant or enable; an announcement that leaves its zones is named by none
afterwards; a start turns claims into ownership; a grant's effective mask holds every zone claimed before, and the
announcements it displaces lose their claims. -/
theorem everyStepKeepsZoneLaw : Obligations.EveryStepKeepsZoneLaw := by
  intro s t law h
  unfold step at h
  split at h
  · obtain rfl := Host.Outcome.next.inj h
    exact law
  · next c rest _ =>
    obtain ⟨u, eq, kept⟩ := exec_zoneLaw c (law.steady (.of_frame rfl rfl rfl) : (s.withPending rest).ZoneLaw)
    obtain rfl := Host.Outcome.next.inj (eq.symm.trans h)
    exact kept

end Sys2Proof.Machine

/-! ## Chapter 1 proofs: the five commands of the Announcement Table -/

namespace Sys2Proof.Machine

/-! ### Commands that are refused, and commands that are carried out -/

/-- A handle that names slot i passes both checks after the latch too. -/
theorem State.latchCommand_names {s : State} {h : Handle} {i : SlotId} (n : s.names h i) (code : Byte) :
    (s.latchCommand code).checkHandle h = .ok i := s.checkHandle_ok n

/-- A command that its body refuses: nothing but the mailbox changes. -/
theorem State.hostCommand_refuses {s : State} (takes : s.takesCommand) {code : Byte} {body : Body} {r : ResultCode}
    (b : body s.mailbox.p (s.latchCommand code) = (s.latchCommand code, some (Reply.plain r))) :
    (.next (s.hostCommand code body) : Host.Outcome State Fault Refusal) = .next (s.answered code r ⟨0#8, 0#8, 0#8, 0#8⟩) :=
  congrArg _ (State.hostCommand_answers takes code body _ b)

/-- A command that its body carries out: the body's work stands, and the mailbox keeps the reply. -/
theorem State.hostCommand_does {s w : State} (takes : s.takesCommand) {code : Byte} {body : Body} {r : Reply}
    (b : body s.mailbox.p (s.latchCommand code) = ({ w with mailbox := (s.latchCommand code).mailbox }, some r))
    (mailbox : w.mailbox = s.mailbox) (host : w.host = s.host) :
    (.next (s.hostCommand code body) : Host.Outcome State Fault Refusal) = .next (w.answered code r.result r.q) := by
  rw [State.hostCommand_acts takes code body _ r b rfl host, ← mailbox]

/-! ### Parameters and queries -/

/-- The policy codes of ANN_OPEN (11.3). -/
theorem policyOfCode_eq {b : Byte} {policy : Policy}
    (code : (b.toNat, policy) ∈ [(0, Policy.discard), (1, Policy.restart), (2, Policy.resume)]) :
    policyOfCode b = some policy := by
  have byte (n : Nat) (small : n < 256) (h : b.toNat = n) : b = BitVec.ofNat 8 n :=
    BitVec.eq_of_toNat_eq (by simpa [Nat.mod_eq_of_lt small] using h)
  simp only [List.mem_cons, Prod.mk.injEq, List.not_mem_nil, or_false] at code
  rcases code with ⟨h, rfl⟩ | ⟨h, rfl⟩ | ⟨h, rfl⟩ <;> rw [byte _ (by decide) h] <;> rfl

/-- A policy code above 2 names no policy. -/
theorem policyOfCode_none {b : Byte} (high : 2 < b.toNat) : policyOfCode b = none := by
  have h0 : b ≠ 0#8 := by rintro rfl; simp at high
  have h1 : b ≠ 1#8 := by rintro rfl; simp at high
  have h2 : b ≠ 2#8 := by rintro rfl; simp at high
  simp [policyOfCode, h0, h1, h2]

/-- A policy code up to 2 names a policy. -/
theorem policyOfCode_isSome {b : Byte} (low : b.toNat ≤ 2) : ∃ policy, policyOfCode b = some policy := by
  have : b.toNat = 0 ∨ b.toNat = 1 ∨ b.toNat = 2 := by omega
  rcases this with h | h | h
  · exact ⟨.discard, policyOfCode_eq (by simp [h])⟩
  · exact ⟨.restart, policyOfCode_eq (by simp [h])⟩
  · exact ⟨.resume, policyOfCode_eq (by simp [h])⟩

/-- Parameters that ANN_OPEN accepts give their policy (R17). -/
theorem openPolicy_eq {p : Params} (priority : p[0].toNat ≤ 7) (some_ : p[1] ≠ 0#8) (zones : p[1].toNat ≤ 15)
    (repeats : p[3].toNat ≤ 15) : openPolicy p = policyOfCode p[2] := by
  refine if_neg ?_
  simp only [not_or, Nat.not_lt]
  exact ⟨priority, some_, zones, repeats⟩

/-- A byte that is at least 1 is not 00h. -/
theorem byte_ne_zero {b : Byte} (h : 1 ≤ b.toNat) : b ≠ 0#8 := by rintro rfl; simp at h

/-- The slots before slot i in their order are the slots of lower number. -/
theorem allSlots_split (i : SlotId) :
    allSlots = allSlots.take i ++ i :: allSlots.drop (i + 1) ∧ ∀ j ∈ allSlots.take i, j < i := by
  revert i; decide

/-- The lowest-numbered FREE slot (R18). -/
theorem State.lowestFree_eq {s : State} {i : SlotId} (free : s.slots[i].state = .free)
    (lowest : ∀ j : SlotId, j < i → s.slots[j].state ≠ .free) : s.lowestFree = some i := by
  obtain ⟨split, below⟩ := allSlots_split i
  refine List.find?_eq_some_iff_append.mpr ⟨by simpa using free, _, _, split, fun j mem => ?_⟩
  simpa using lowest j (below j mem)

/-- Without a FREE slot there is no lowest one. -/
theorem State.lowestFree_none {s : State} (full : ∀ i : SlotId, s.slots[i].state ≠ .free) : s.lowestFree = none :=
  List.find?_eq_none.mpr fun i _ => by simpa using full i

/-- A FREE slot that is taken leaves one FREE slot less (R5). -/
theorem State.freeSlots_take {s t : State} {i : SlotId} {x : Slot} (slots : t.slots = s.slots.set i x)
    (free : s.slots[i].state = .free) (taken : x.state ≠ .free) : t.freeSlots + 1 = s.freeSlots := by
  have self : t.slots[i] = x := by simp [slots]
  have rest : (allSlots.erase i).countP (fun j => t.slots[j].state == .free)
      = (allSlots.erase i).countP fun j => s.slots[j].state == .free := by
    refine List.countP_congr fun j mem => ?_
    have e : j ≠ i := ((List.Nodup.mem_erase_iff (by decide)).mp mem).1
    rw [slots]
    exact (congrArg (fun a : Slot => (a.state == .free) = true) (s.setSlot_get_other i j x e)).to_iff
  have perm := List.perm_cons_erase (mem_allSlots i)
  have mine : ¬ (t.slots[i].state == .free) = true := by rw [self]; simpa using taken
  have was : (s.slots[i].state == .free) = true := by rw [free]; rfl
  rw [State.freeSlots, State.freeSlots, perm.countP_eq, perm.countP_eq, List.countP_cons,
    List.countP_cons, if_neg mine, if_pos was, rest]

/-! ### ANN_OPEN -/

/-- An ANN_OPEN that R17 and R18 accept. -/
theorem annOpenBody_accepts {p : Params} {s : State} {policy : Policy} {i : SlotId} (ok : openPolicy p = some policy)
    (found : s.lowestFree = some i) :
    annOpenBody p s
      = (s.setSlot i (Slot.opened s.slots[i].generation policy p),
          some ⟨.ok, ⟨handleOf s.slots[i].generation i,
            byteOf (s.setSlot i (Slot.opened s.slots[i].generation policy p)).freeSlots, 0#8, 0#8⟩⟩) := by
  simp only [annOpenBody, ok, found]

/-- Settles O3: the body's accepting branch at the lowest FREE slot. -/
theorem annOpenTakesLowestFreeSlot : Obligations.AnnOpenTakesLowestFreeSlot := by
  intro s i policy takes priority some_ zones code repeats free lowest
  have ok : openPolicy s.mailbox.p = some policy :=
    (openPolicy_eq priority (byte_ne_zero some_) zones repeats).trans (policyOfCode_eq code)
  have fewer : (s.setSlot i (Slot.opened s.slots[i].generation policy s.mailbox.p)).freeSlots + 1 = s.freeSlots :=
    State.freeSlots_take rfl free (by simp [Slot.opened])
  refine ⟨s.setSlot i (Slot.opened s.slots[i].generation policy s.mailbox.p), ?_, fewer, rfl⟩
  rw [← fewer, Nat.add_sub_cancel]
  refine State.hostCommand_does takes (r := ⟨.ok, _⟩) ?_ rfl rfl
  exact annOpenBody_accepts ok (State.lowestFree_eq free lowest)

/-! ### ANN_APPEND -/

/-- What ANN_APPEND takes for a segment is what its parameters describe (R20, R184). -/
theorem segmentOfParams_eq_some {p : Params} {g : Segment} : segmentOfParams p = some g ↔ spellsSegment p g := by
  constructor
  · intro h
    simp only [segmentOfParams] at h
    split at h
    · next clip =>
      split at h
      · cases h
      · next number =>
        split at h
        · next low =>
          obtain rfl := Option.some.inj h
          exact ⟨clip, rfl, Nat.le_of_not_lt number, rfl, .inl ⟨low, rfl⟩⟩
        · split at h
          · next entrys =>
            obtain rfl := Option.some.inj h
            exact ⟨clip, rfl, Nat.le_of_not_lt number, rfl, .inr ⟨entrys, rfl⟩⟩
          · cases h
    · split at h
      · next gap =>
        split at h
        · cases h
        · next length =>
          obtain rfl := Option.some.inj h
          exact ⟨gap, rfl, by omega, by omega⟩
      · split at h
        · next mark =>
          obtain rfl := Option.some.inj h
          exact ⟨mark, rfl⟩
        · cases h
  · cases g with
    | clip n trim fault =>
      rintro ⟨clip, rfl, number, rfl, ⟨low, rfl⟩ | ⟨entrys, rfl⟩⟩
      · simp [segmentOfParams, clip, low, Nat.not_lt.mpr number]
      · simp [segmentOfParams, clip, entrys, Nat.not_lt.mpr number]
    | gap ms =>
      rintro ⟨gap, rfl, low, high⟩
      have length : ¬ (p[2].toNat + 256 * p[3].toNat = 0 ∨ 4095 < p[2].toNat + 256 * p[3].toNat) := by omega
      simp only [segmentOfParams, gap, length]
      simp
    | mark value =>
      rintro ⟨mark, rfl⟩
      simp [segmentOfParams, mark]

/-- Parameters that describe no segment. -/
theorem segmentOfParams_eq_none {p : Params} (none_ : ∀ g, ¬ spellsSegment p g) : segmentOfParams p = none :=
  Option.eq_none_iff_forall_ne_some.mpr fun g eq => none_ g (segmentOfParams_eq_some.mp eq)

section annAppend
variable {p : Params} {s : State} {i : SlotId} (ok : s.checkHandle p[0] = .ok i)
include ok

theorem annAppendBody_badState (state : s.slots[i].state ≠ .building) :
    annAppendBody p s = (s, some (Reply.plain .badState)) := by
  simp only [annAppendBody, ok]
  rw [if_pos state]

theorem annAppendBody_badParam (state : s.slots[i].state = .building) (none_ : segmentOfParams p = none) :
    annAppendBody p s = (s, some (Reply.plain .badParam)) := by
  simp only [annAppendBody, ok, none_]
  rw [if_neg (not_not.mpr state)]

theorem annAppendBody_tooLong (state : s.slots[i].state = .building) {g : Segment} (some_ : segmentOfParams p = some g)
    (long : 32 ≤ s.slots[i].segments.length) : annAppendBody p s = (s, some (Reply.plain .tooLong)) := by
  simp only [annAppendBody, ok, some_]
  rw [if_neg (not_not.mpr state), if_pos long]

theorem annAppendBody_poolExhausted (state : s.slots[i].state = .building) {g : Segment}
    (some_ : segmentOfParams p = some g) (room : s.slots[i].segments.length < 32) (empty : s.poolFree = 0) :
    annAppendBody p s = (s, some (Reply.plain .poolExhausted)) := by
  simp only [annAppendBody, ok, some_]
  rw [if_neg (not_not.mpr state), if_neg (Nat.not_le.mpr room), if_pos empty]

/-- An ANN_APPEND that R19 and R20 accept. -/
theorem annAppendBody_accepts (state : s.slots[i].state = .building) {g : Segment} (some_ : segmentOfParams p = some g)
    (room : s.slots[i].segments.length < 32) (free : 0 < s.poolFree) :
    annAppendBody p s
      = ({ s with
          slots := s.slots.set i { s.slots[i] with segments := s.slots[i].segments ++ [g] }
          poolFree := s.poolFree - 1 },
        some ⟨.ok, ⟨byteOf (s.slots[i].segments.length + 1), byteOf (min (s.poolFree - 1) 255), 0#8, 0#8⟩⟩) := by
  simp only [annAppendBody, ok, some_]
  rw [if_neg (not_not.mpr state), if_neg (Nat.not_le.mpr room), if_neg (Nat.ne_of_gt free)]
  rfl

end annAppend

/-- Settles O4: each refusal is its branch of the body. -/
theorem openAndAppendRefused : Obligations.OpenAndAppendRefused := by
  intro s takes
  refine ⟨fun bad => State.hostCommand_refuses takes ?_, fun ⟨priority, some_, zones, policy, repeats, full⟩ =>
    State.hostCommand_refuses takes ?_, fun i named => ⟨fun state => State.hostCommand_refuses takes ?_,
    fun state none_ => State.hostCommand_refuses takes ?_, fun state ⟨g, some_⟩ long => State.hostCommand_refuses takes ?_,
    fun state ⟨g, some_⟩ room empty => State.hostCommand_refuses takes ?_⟩⟩
  · have refused : openPolicy s.mailbox.p = none := by
      unfold openPolicy
      split
      · rfl
      · next ok =>
        simp only [not_or, Nat.not_lt] at ok
        obtain ⟨priority, some_, zones, repeats⟩ := ok
        refine policyOfCode_none ?_
        rcases bad with h | h | h | h | h
        · omega
        · exact absurd h some_
        · omega
        · exact h
        · omega
    simp only [annOpenBody, refused]
  · obtain ⟨code, ok⟩ := policyOfCode_isSome policy
    have none_ : (s.latchCommand 0x10#8).lowestFree = none := State.lowestFree_none full
    simp only [annOpenBody, openPolicy_eq priority some_ zones repeats, ok, none_]
  · exact annAppendBody_badState (State.latchCommand_names named _) state
  · exact annAppendBody_badParam (State.latchCommand_names named _) state (segmentOfParams_eq_none none_)
  · exact annAppendBody_tooLong (State.latchCommand_names named _) state (segmentOfParams_eq_some.mpr some_) long
  · exact annAppendBody_poolExhausted (State.latchCommand_names named _) state (segmentOfParams_eq_some.mpr some_) room
      empty

/-- Settles O6: the body's accepting branch. -/
theorem annAppendAddsSegment : Obligations.AnnAppendAddsSegment := by
  intro s i g takes named building spelled room free
  refine State.hostCommand_does takes (r := ⟨.ok, _⟩) ?_ rfl rfl
  exact annAppendBody_accepts (State.latchCommand_names named _) building (segmentOfParams_eq_some.mpr spelled) room free

/-! ### The handle checks -/

/-- The four commands that take a handle, with their codes and bodies (R4, 11.3). -/
theorem handleCommand_body {c : Instr} {code : Byte}
    (h : (c, code) ∈ [(Instr.annAppend, 0x11#8), (Instr.annSubmit, 0x12#8), (Instr.annCancel, 0x13#8),
      (Instr.annStatus, 0x14#8)]) :
    ∃ body : Body, (∀ s, exec c s = .next (s.hostCommand code body))
      ∧ ∀ (p : Params) (s : State) (r : ResultCode), s.checkHandle p[0] = .error r →
          body p s = (s, some (Reply.plain r)) := by
  simp only [List.mem_cons, Prod.mk.injEq, List.not_mem_nil, or_false] at h
  rcases h with ⟨rfl, rfl⟩ | ⟨rfl, rfl⟩ | ⟨rfl, rfl⟩ | ⟨rfl, rfl⟩
  · exact ⟨annAppendBody, fun _ => rfl, fun p s r bad => by simp only [annAppendBody, bad]⟩
  · exact ⟨annSubmitBody, fun _ => rfl, fun p s r bad => by simp only [annSubmitBody, bad]⟩
  · exact ⟨annCancelBody, fun _ => rfl, fun p s r bad => by simp only [annCancelBody, bad]⟩
  · exact ⟨annStatusBody, fun _ => rfl, fun p s r bad => by simp only [annStatusBody, bad]⟩

/-- Settles O5: each of the four bodies answers a failed check with its result. -/
theorem handleChecks : Obligations.HandleChecks := by
  intro s i c code row takes at_
  obtain ⟨body, run, refuses⟩ := handleCommand_body row
  have slot : handleSlot s.mailbox.p[0] = i := Fin.ext at_
  rw [run]
  refine ⟨fun free => State.hostCommand_refuses takes (refuses _ _ _ ?_),
    fun live other => State.hostCommand_refuses takes (refuses _ _ _ ?_)⟩
  · exact State.checkHandle_free (by simpa only [slot, State.latchCommand_slots] using free)
  · refine State.checkHandle_stale (by simpa only [slot, State.latchCommand_slots] using live) fun same => other ?_
    have generation := congrArg BitVec.toNat same
    have small := s.mailbox.p[0].isLt
    simp only [slot, State.latchCommand_slots, handleGeneration, BitVec.toNat_ofNat] at generation
    omega

/-! ### ANN_SUBMIT -/

/-- A clip is valid in the directory where the directory accepts it (R117). -/
theorem Directory.validEntry_iff (d : Directory) (n : Nat) : d.validEntry n = true ↔ d.accepts n := by
  unfold Directory.validEntry Directory.accepts
  split <;> simp [*]

/-- A list has sound where not every segment is a MARK (R22). -/
theorem hasSound_iff {l : List Segment} : hasSound l = true ↔ ∃ g ∈ l, ∀ v, g ≠ .mark v := by
  simp only [hasSound, List.any_eq_true]
  refine exists_congr fun g => and_congr_right fun _ => ?_
  cases g <;> simp

/-- A list of MARKs has no sound. -/
theorem hasSound_marks {l : List Segment} (marks : ∀ g ∈ l, ∃ v, g = .mark v) : hasSound l = false := by
  rw [Bool.eq_false_iff, ne_eq, hasSound_iff]
  rintro ⟨g, mem, sound⟩
  obtain ⟨v, rfl⟩ := marks g mem
  exact sound v rfl

/-- A CLIP has sound. -/
theorem hasSound_clip {l : List Segment} {n : Nat} {trim : Option Nat} {fault : Bool}
    (mem : Segment.clip n trim fault ∈ l) : hasSound l = true :=
  hasSound_iff.mpr ⟨_, mem, nofun⟩

/-- Clips that the directory accepts are passed over (R22). -/
theorem firstBadClip_append (d : Directory) (after : List Segment) :
    ∀ (before : List Segment) (k : Nat), (∀ n t f, Segment.clip n t f ∈ before → d.accepts n) →
      firstBadClip d k (before ++ after) = firstBadClip d (k + before.length) after
  | [], _, _ => rfl
  | g :: rest, k, ok => by
    have next : firstBadClip d (k + 1) (rest ++ after) = firstBadClip d (k + (g :: rest).length) after := by
      rw [firstBadClip_append d after rest (k + 1) fun n t f mem => ok n t f (List.mem_cons_of_mem _ mem)]
      congr 1
      simp only [List.length_cons]
      omega
    cases g with
    | clip n t f =>
      have valid := (d.validEntry_iff n).mpr (ok n t f List.mem_cons_self)
      rw [← next, List.cons_append, firstBadClip, if_pos valid]
    | gap ms => rw [← next]; rfl
    | mark v => rw [← next]; rfl

/-- A list whose clips the directory accepts has no bad clip. -/
theorem firstBadClip_none {d : Directory} {l : List Segment} (ok : ∀ n t f, Segment.clip n t f ∈ l → d.accepts n) :
    firstBadClip d 0 l = none := by
  have := firstBadClip_append d [] l 0 ok
  rwa [List.append_nil] at this

/-- The first clip that the directory does not accept. -/
theorem firstBadClip_some {d : Directory} {before after : List Segment} {n : Nat} {trim : Option Nat} {fault : Bool}
    (bad : ¬ d.accepts n) (ok : ∀ m t f, Segment.clip m t f ∈ before → d.accepts m) :
    firstBadClip d 0 (before ++ .clip n trim fault :: after) = some (before.length, n) := by
  rw [firstBadClip_append d _ before 0 ok, firstBadClip, if_neg (mt (d.validEntry_iff n).mp bad), Nat.zero_add]

section annSubmit
variable {p : Params} {s : State} {i : SlotId} (ok : s.checkHandle p[0] = .ok i)
include ok

theorem annSubmitBody_badState (state : s.slots[i].state ≠ .building) :
    annSubmitBody p s = (s, some (Reply.plain .badState)) := by
  simp only [annSubmitBody, ok]
  rw [if_pos state]

theorem annSubmitBody_busy (state : s.slots[i].state = .building)
    (busy : s.port.claim.exclusive = true ∨ s.dir.state = .loading) :
    annSubmitBody p s = (s, some (Reply.plain .busy)) := by
  simp only [annSubmitBody, ok]
  rw [if_neg (not_not.mpr state), if_pos (by simpa using busy)]

theorem annSubmitBody_dirInvalid (state : s.slots[i].state = .building) (shared : s.port.claim.exclusive = false)
    (dir : s.dir.state = .empty ∨ s.dir.state = .failed ∨ s.dir.state = .stale) :
    annSubmitBody p s = (s, some (Reply.plain .dirInvalid)) := by
  simp only [annSubmitBody, ok]
  rw [if_neg (not_not.mpr state)]
  rcases dir with dir | dir | dir <;> simp [shared, dir]

/-- Past the checks of state, claim and directory the list is judged (R22). -/
theorem annSubmitBody_judges (state : s.slots[i].state = .building) (shared : s.port.claim.exclusive = false)
    (dir : s.dir.state = .valid) :
    annSubmitBody p s =
      if !hasSound s.slots[i].segments then (s, some (Reply.plain .noSound))
      else
        match firstBadClip s.dir 0 s.slots[i].segments with
        | some (k, n) => (s, some ⟨.badClip, ⟨byteOf k, byteOf n, byteOf (n / 256 % 2), 0#8⟩⟩)
        | none =>
          ({ s with
              slots := s.slots.set i
                { s.slots[i] with state := .queued, deadline := armedDeadline s.slots[i].deadlineSetting }
              order := s.order ++ [i], passPending := true },
            some ⟨.ok, ⟨p[0], 0#8, 0#8, 0#8⟩⟩) := by
  simp only [annSubmitBody, ok]
  rw [if_neg (not_not.mpr state), if_neg (by simp [shared, dir]), if_neg (not_not.mpr dir)]
  rfl

end annSubmit

/-- Settles O7: the body's accepting branch. -/
theorem annSubmitQueues : Obligations.AnnSubmitQueues := by
  intro s i takes named building shared dir sound clips
  refine State.hostCommand_does takes (r := ⟨.ok, _⟩) ?_ rfl rfl
  rw [annSubmitBody_judges (State.latchCommand_names named _) building shared dir]
  simp only [State.latchCommand_slots, State.latchCommand_dir, hasSound_iff.mpr sound, firstBadClip_none clips]
  rfl

/-- Settles O8: each refusal is its branch of the body. -/
theorem annSubmitRefused : Obligations.AnnSubmitRefused := by
  intro s i takes named
  have ok := State.latchCommand_names named 0x12#8
  refine ⟨fun state => ?_, fun state busy => ?_, fun state shared dir => ?_, fun state shared dir marks => ?_,
    fun before after n trim fault state shared dir list bad good => ?_⟩
  · exact State.hostCommand_refuses takes (annSubmitBody_badState ok state)
  · exact State.hostCommand_refuses takes (annSubmitBody_busy ok state busy)
  · exact State.hostCommand_refuses takes (annSubmitBody_dirInvalid ok state shared dir)
  · refine State.hostCommand_refuses takes ?_
    rw [annSubmitBody_judges ok state shared dir]
    simp only [State.latchCommand_slots, hasSound_marks marks]
    rfl
  · refine congrArg _ (State.hostCommand_answers takes _ _ ⟨.badClip, _⟩ ?_)
    rw [annSubmitBody_judges ok state shared dir]
    have sound : hasSound s.slots[i].segments = true := hasSound_clip (by rw [list]; exact List.mem_append_right _ List.mem_cons_self)
    simp only [State.latchCommand_slots, State.latchCommand_dir, sound]
    rw [list, firstBadClip_some bad good]
    rfl

/-! ### ANN_CANCEL and ANN_STATUS -/

section annCancel
variable {p : Params} {s : State} {i : SlotId} (ok : s.checkHandle p[0] = .ok i)
include ok

theorem annCancelBody_building (state : s.slots[i].state = .building) :
    annCancelBody p s = (s.freeSlot i .cancelled, cancelReply .free) := by
  simp only [annCancelBody, ok, state]

theorem annCancelBody_queued (state : s.slots[i].state = .queued) :
    annCancelBody p s = ((s.freeSlot i .cancelled).requestPass, cancelReply .free) := by
  simp only [annCancelBody, ok, state]

theorem annCancelBody_granted (state : s.slots[i].state = .granted) :
    annCancelBody p s
      = (((s.withdrawClaims (s.handleAt i)).freeSlot i .cancelled).requestPass, cancelReply .free) := by
  simp only [annCancelBody, ok, state]

theorem annCancelBody_playing (state : s.slots[i].state = .playing) :
    annCancelBody p s
      = ((s.enterStopping i { reason := .cancelled, cancelPending := false, preemptor := none }).requestPass,
          cancelReply .stopping) := by
  simp only [annCancelBody, ok, state]

theorem annCancelBody_stopping (state : s.slots[i].state = .stopping) : annCancelBody p s = cancelStopping s i := by
  simp only [annCancelBody, ok, state]

end annCancel

/-- Settles O9: a freeing, with the pass of R28 where the announcement was in the list. -/
theorem annCancelFreesWaiting : Obligations.AnnCancelFreesWaiting := by
  intro s i takes named waiting
  have ok := State.latchCommand_names named 0x13#8
  obtain ⟨-, handle⟩ := named
  refine State.hostCommand_does takes (r := ⟨.ok, _⟩) ?_ rfl rfl
  rw [handle]
  rcases waiting with queued | ⟨building, out⟩
  · have pass : (s.passPending || AnnState.queued == .queued) = true := Bool.or_true _
    rw [annCancelBody_queued ok queued, queued, State.freeSlot_eq, pass]
    rfl
  · have unlisted : (s.latchCommand 0x13#8).order.contains i = false := by simpa using out
    rw [annCancelBody_building ok building, building, State.freeSlot_eq, unlisted]
    rfl

/-- Withdrawing claims does not look at the mailbox. -/
theorem State.withdrawClaims_mailbox (s : State) (h : Handle) (m : Mailbox) :
    ({ s with mailbox := m } : State).withdrawClaims h = { s.withdrawClaims h with mailbox := m } := by
  refine List.foldl_hom (fun t : State => { t with mailbox := m }) fun t z => ?_
  have drop : ({ t with mailbox := m } : State).dropClaimant z = { t.dropClaimant z with mailbox := m } := by
    rw [State.dropClaimant_eq, State.dropClaimant_eq]
  by_cases claims : t.zones[z].claimant = some h
  · simp only [claims, if_true, drop]
  · simp only [claims, if_false]

/-- Settles O10: the claims are withdrawn pointwise, and the slot is freed. -/
theorem cancelAndExpiryWithdrawClaims : Obligations.CancelAndExpiryWithdrawClaims := by
  intro s i
  obtain ⟨zones, stages, eq, at_⟩ := s.withdrawClaims_eq (s.handleAt i)
  refine ⟨zones, stages, at_, fun takes named granted => ?_, fun up waiting due => ?_⟩
  · have ok := State.latchCommand_names named 0x13#8
    have latched : (s.latchCommand 0x13#8).withdrawClaims ((s.latchCommand 0x13#8).handleAt i)
        = { s.latchCommand 0x13#8 with zones := zones, stages := stages } :=
      (s.withdrawClaims_mailbox (s.handleAt i) (s.latchCommand 0x13#8).mailbox).trans (by rw [eq]; rfl)
    refine State.hostCommand_does takes (r := ⟨.ok, _⟩) ?_ rfl rfl
    rw [annCancelBody_granted ok granted, latched, State.freeSlot_eq]
    rfl
  · have candidate : s.slots[i].state.candidate = true := (AnnState.candidate_iff _).mpr waiting
    have row : exec (.deadlineExpiry i) s = .next (s.takeExpiry i) := congrArg _ (State.whenRunning_up up _)
    rw [row, State.takeExpiry, if_pos (by simp only [candidate, due]; rfl), eq, State.freeSlot_eq]
    rfl

/-- Settles O11: PLAYING becomes STOPPING with its engine's fade; STOPPING is looked at by R26. -/
theorem annCancelOfPlayingOrStopping : Obligations.AnnCancelOfPlayingOrStopping := by
  intro s i takes named
  have ok := State.latchCommand_names named 0x13#8
  refine ⟨fun e playing bound => ?_, fun why stopping stop => ⟨fun ⟨preempted, clear⟩ => ?_, fun other => ?_⟩⟩
  · refine State.hostCommand_does takes (r := ⟨.ok, _⟩) ?_ rfl rfl
    have bound' : (s.latchCommand 0x13#8).slots[i].engine = some e := bound
    rw [annCancelBody_playing ok playing, State.enterStopping_some bound']
    rfl
  · obtain ⟨reason, pending, by_⟩ := why
    obtain rfl : reason = .preempted := preempted
    obtain rfl : pending = false := clear
    refine State.hostCommand_does takes (r := ⟨.ok, _⟩) ?_ rfl rfl
    rw [annCancelBody_stopping ok stopping, cancelStopping]
    simp only [State.latchCommand_slots, stop]
    rfl
  · refine State.hostCommand_refuses takes ?_
    rw [annCancelBody_stopping ok stopping, cancelStopping]
    simp only [State.latchCommand_slots, stop]
    split
    · next h =>
      obtain rfl := Option.some.inj h
      simp at other
    · rfl

/-- Settles O12: the reply of ANN_STATUS. -/
theorem annStatusReports : Obligations.AnnStatusReports := by
  intro s i code takes named row
  have state : annStateCode s.slots[i].state = code := by
    simp only [List.mem_cons, Prod.mk.injEq, List.not_mem_nil, or_false] at row
    rcases row with ⟨h, rfl⟩ | ⟨h, rfl⟩ | ⟨h, rfl⟩ | ⟨h, rfl⟩ | ⟨h, rfl⟩ <;> rw [h] <;> rfl
  refine congrArg _ (State.hostCommand_answers takes _ _ ⟨.ok, _⟩ ?_)
  simp only [annStatusBody, State.latchCommand_names named]
  rw [← state]
  rfl

end Sys2Proof.Machine

/-! ## Chapter 1 proofs: the resets -/

namespace Sys2Proof.Machine

/-! ### The part right after a reset -/

theorem State.reset_poolLaw : State.reset.PoolLaw := by
  unfold State.PoolLaw
  decide

theorem State.reset_orderLaw : State.reset.OrderLaw := by
  unfold State.OrderLaw
  decide

/-- Settles O60: every slot is FREE, every engine IDLE, and no zone, claim, burst or record stands. -/
theorem resetMeetsTheLaws : Obligations.ResetMeetsTheLaws := by
  refine ⟨?_, State.reset_poolLaw, State.reset_orderLaw, ?_, ?_, ?_, ?_, ?_, ?_, .of_reset rfl rfl, ?_⟩
  · unfold State.EventLaw
    decide
  · unfold State.DirectoryLaw
    decide
  · unfold State.PortLaw
    decide
  · unfold State.MailboxLaw
    decide
  · unfold State.StageLaw
    decide
  · unfold State.RingLaw
    decide
  · unfold State.BindingLaw
    decide
  · unfold State.RangeLaw
    decide

/-! ### POR and pin reset -/

/-- Settles O21: both commands leave a hard reset of their kind, and its register window shows RESET_DONE alone. -/
theorem resetsSetEveryRecord : Obligations.ResetsSetEveryRecord := by
  intro s c kind low row
  have leaves : exec c s = .next { s.hardReset kind with resetnLow := low } := by
    simp only [List.mem_cons, Prod.mk.injEq, List.not_mem_nil, or_false] at row
    obtain ⟨rfl, rfl, rfl⟩ | ⟨rfl, rfl, rfl⟩ := row <;> rfl
  refine ⟨_, leaves, rfl, rfl, rfl, rfl, rfl, fun i => ?_, rfl, rfl, fun z => ?_, rfl, fun z => ?_, fun e => ?_,
    rfl, rfl, rfl, rfl, rfl, rfl⟩
  · simp [State.hardReset, State.reset]
  · simp [State.hardReset, State.reset]
  · simp [State.hardReset, State.reset]; rfl
  · simp [State.hardReset, State.reset]

/-! ### Soft reset -/

/-- The freeing of the slots of a list by a soft reset changes pool, list and slots alone (R31). -/
theorem State.freeSlotsInReset_frame (l : List SlotId) (s : State) :
    l.foldl State.freeSlotInReset s
      = { s with
          poolFree := (l.foldl State.freeSlotInReset s).poolFree
          order := (l.foldl State.freeSlotInReset s).order
          slots := (l.foldl State.freeSlotInReset s).slots } := by
  induction l generalizing s with
  | nil => rfl
  | cons i rest ih =>
    have first : s.freeSlotInReset i
        = { s with
            poolFree := (s.freeSlotInReset i).poolFree, order := (s.freeSlotInReset i).order
            slots := (s.freeSlotInReset i).slots } := by
      simp only [State.freeSlotInReset]
      split <;> rfl
    rw [List.foldl_cons, ih, first]

/-- Everything a soft reset does to the other records (R180). -/
theorem State.softReset_eq (s : State) :
    ∃ (slots : Vector Slot 16) (poolFree : Nat) (order : List SlotId), s.softReset
      = { s with
          slots := slots, poolFree := poolFree, order := order
          zones := Vector.replicate 4 { owner := none, claimant := none }, passPending := false
          stages := Vector.ofFn fun z : Zone => s.stages[z].softReset s.zones[z].owner.isSome
          engines := Vector.ofFn fun e : EngineId => s.engines[e].unbind
          dir := s.dir.softReset, port := s.port.softReset, events := s.events.softReset } := by
  have frame := State.freeSlotsInReset_frame allSlots s
  unfold State.softReset State.softFree
  generalize allSlots.foldl State.freeSlotInReset s = t at frame ⊢
  rw [frame]
  exact ⟨t.slots, t.poolFree, t.order, rfl⟩

/-- After a soft reset every slot is FREE (R31). -/
theorem State.softReset_free (s : State) (i : SlotId) : s.softReset.slots[i].state = .free := by
  rw [State.softReset_slot]
  split
  · assumption
  · rfl

/-- A soft reset gives every segment record back to the pool and empties the submission order list (R31). -/
theorem State.softReset_tables {s : State} (pool : s.PoolLaw) (order : s.OrderLaw) :
    s.softReset.poolFree = 256 ∧ s.softReset.order = [] := by
  have keeps : s.KeepsTables s.softReset := softResetBody_keeps s.mailbox.p s
  have free := s.softReset_free
  generalize s.softReset = t at keeps free
  obtain ⟨⟨total, empty⟩, -, listed⟩ := keeps.tables pool order
  have returned (i : SlotId) : t.slots[i].segments.length = 0 := by
    rw [(empty i).2 (free i)]; rfl
  refine ⟨?_, List.eq_nil_iff_forall_not_mem.mpr fun i mem => ?_⟩
  · simpa only [returned, List.map_const', List.sum_replicate, smul_eq_mul, mul_zero, add_zero] using total
  · have scheduled := (listed i).mp mem
    rw [free i] at scheduled
    cases scheduled

/-- A zone stage after a soft reset (R139). -/
theorem Stage.softReset_eq (g : Stage) (owned : Bool) :
    g.softReset owned
      = if owned then { g with fade := some ⟨0, g.lastSample, .softReset⟩, idleTimer := none }
        else { g with
          fade := g.fade.map fun f => { f with cause := .softReset }
          idleTimer := none
          bias := if g.fade.isSome ∨ g.bias = .off then g.bias else .rampDown } := by
  obtain ⟨enabled, target, current, hold, bias, level, timer, fade, last, dac⟩ := g
  cases owned
  · cases fade
    · cases bias <;> rfl
    · rfl
  · rfl

/-- Settles O20: the freeing gives pool and list back, and each block's part is read off its own record. -/
theorem softResetQuietsThePart : Obligations.SoftResetQuietsThePart := by
  intro s takes pool order
  obtain ⟨slots, poolFree, list, whole⟩ := State.softReset_eq (s.latchCommand 0x5A#8)
  obtain ⟨pool_, list_⟩ := State.softReset_tables (s := s.latchCommand 0x5A#8) pool order
  have slot := State.softReset_slot (s.latchCommand 0x5A#8)
  have body : softResetBody s.mailbox.p (s.latchCommand 0x5A#8)
    = ((s.latchCommand 0x5A#8).softReset, some (Reply.plain .ok)) := rfl
  rw [whole] at pool_ list_ slot body
  obtain rfl : poolFree = 256 := pool_
  obtain rfl : list = [] := list_
  refine ⟨_, congrArg _ (State.hostCommand_acts takes 0x5A#8 softResetBody _ _ body rfl rfl), rfl, slot,
    fun e => ?_, fun z => ?_, rfl, fun claim => ?_, fun mode claim => ?_, fun mode hold ending claim => ?_⟩
  · simp only [Fin.getElem_fin, Vector.getElem_ofFn]; rfl
  · simp only [Fin.getElem_fin, Vector.getElem_ofFn, Stage.softReset_eq]; rfl
  · simp only [Port.softReset, State.latchCommand_port, claim]
  · simp only [Port.softReset, State.latchCommand_port, claim]
  · simp only [Port.softReset, State.latchCommand_port, claim, Option.isNone_iff_eq_none]
    rfl

end Sys2Proof.Machine

/-! ## Chapter 1 proofs: a due start -/

namespace Sys2Proof.Machine

/-! ### Fault marks and the walk of the fetch cursor -/

/-- Clearing a fault mark in a list whose fault marks are clear changes nothing. -/
theorem setFault_cleared (l : List Segment) (k : Nat) :
    setFault (l.map (Segment.withFault false)) k false = l.map (Segment.withFault false) := by
  have idle (g : Segment) : (g.withFault false).withFault false = g.withFault false := by cases g <;> rfl
  refine List.ext_getElem (by simp [setFault]) fun j _ _ => ?_
  simp only [setFault, List.getElem_modify, List.getElem_map, idle, ite_self]

/-- The walk leaves a list whose fault marks are clear as it is. -/
theorem walkFetch_cleared (repeatCount playSeg : Nat) (l : List Segment) :
    ∀ (fuel : Nat) (c : FetchCursor),
      (walkFetch repeatCount playSeg fuel (l.map (Segment.withFault false)) c).1 = l.map (Segment.withFault false)
  | 0, _ => rfl
  | fuel + 1, c => by
    unfold walkFetch
    simp only [setFault_cleared]
    split
    · split
      · split
        · rfl
        · exact walkFetch_cleared repeatCount playSeg l fuel _
      · rfl
    · split
      · exact walkFetch_cleared repeatCount playSeg l fuel _
      · rfl

/-- A fetch cursor that may enter the CLIP it stands before enters it (R62). -/
theorem walkFetch_clip (repeatCount playSeg fuel : Nat) {l : List Segment} {c : FetchCursor} {n : Nat}
    {trim : Option Nat} {fault : Bool} (free : c.lap = .same) (clip : l[c.seg]? = some (.clip n trim fault)) :
    walkFetch repeatCount playSeg (fuel + 1) l c = (setFault l c.seg false, { c with offset := 0, phase := .header }) := by
  obtain ⟨inside, -⟩ := List.getElem?_eq_some_iff.mp clip
  rw [walkFetch, if_pos inside, if_pos (.inl free)]
  simp only [clip]

/-! ### The bind -/

/-- An announcement that is bound has its fault marks cleared, and nothing else of it changes (R57). -/
theorem bindEngine_record (d : Directory) (e : Engine) (a : Slot) (h : Handle) :
    (bindEngine d e a h).slot = { a with segments := a.segments.map (Segment.withFault false) } := by
  rw [bindEngine, Bound.considerRequest_slot]
  exact congrArg (fun l => { a with segments := l }) (walkFetch_cleared _ _ _ _ _)

/-- An engine that is bound stands at the play position; its fetch side decides about cursor and request (R57, R62). -/
theorem bindEngine_engine (d : Directory) (e : Engine) (a : Slot) (h : Handle) :
    (bindEngine d e a h).eng = { e.bound h a.playPos with
      fetch := (bindEngine d e a h).eng.fetch, request := (bindEngine d e a h).eng.request } := by
  rw [bindEngine]
  unfold Bound.considerRequest
  split <;> rfl

/-- At a CLIP, the engine asks for its header (R61, R62). -/
theorem bindEngine_clip {d : Directory} {a : Slot} {n : Nat} {trim : Option Nat} {fault : Bool} {entry : ClipEntry}
    (e : Engine) (h : Handle) (clip : a.segments[a.playPos.seg]? = some (.clip n trim fault))
    (known : d.entries[n]? = some entry) :
    (bindEngine d e a h).eng.fetch
        = { pass := a.playPos.pass, seg := a.playPos.seg, offset := 0, phase := .header, lap := .same }
      ∧ (bindEngine d e a h).eng.request = some
        { kind := .header, addr := entry.start, count := 8, epoch := e.epoch, granted := false, dropped := false } := by
  have cleared : (a.segments.map (Segment.withFault false))[a.playPos.seg]? = some (.clip n trim false) := by
    rw [List.getElem?_map, clip]; rfl
  have walk := walkFetch_clip a.repeatCount a.playPos.seg (2 * (a.segments.map (Segment.withFault false)).length + 1)
    (c := { pass := a.playPos.pass, seg := a.playPos.seg, offset := 0, phase := .waiting, lap := .same }) rfl cleared
  have found : d.entry n = entry := by simp [Directory.entry, known]
  rw [setFault_cleared] at walk
  have walked : Bound.walkFrom
        ⟨e.bound h a.playPos, { a with segments := a.segments.map (Segment.withFault false) }⟩ a.playPos.seg
      = ⟨{ e.bound h a.playPos with
            fetch := { pass := a.playPos.pass, seg := a.playPos.seg, offset := 0, phase := .header, lap := .same } },
          { a with segments := a.segments.map (Segment.withFault false) }⟩ := by
    simp only [Bound.walkFrom, walkFuel]
    exact congrArg (fun out : List Segment × FetchCursor => (⟨{ e.bound h a.playPos with fetch := out.2 },
      { a with segments := out.1 }⟩ : Bound)) walk
  rw [bindEngine, walked]
  have asked : clipNumberAt (a.segments.map (Segment.withFault false)) a.playPos.seg = n := by
    rw [clipNumberAt, cleared]
  refine ⟨rfl, ?_⟩
  simp only [Bound.considerRequest, Bound.nextRequest, Bound.fetchEntry, asked, found]
  rfl

/-! ### The start -/

theorem allEngines_split (e : EngineId) :
    allEngines = allEngines.take e ++ e :: allEngines.drop (e + 1) ∧ ∀ j ∈ allEngines.take e, j < e := by
  revert e; decide

/-- The lowest-numbered unbound engine (R42). -/
theorem State.freeEngine_eq {s : State} {e : EngineId} (free : s.engines[e].binding = none)
    (lowest : ∀ j : EngineId, j < e → s.engines[j].binding ≠ none) : s.freeEngine = some e := by
  obtain ⟨split, below⟩ := allEngines_split e
  refine List.find?_eq_some_iff_append.mpr ⟨by simpa using free, _, _, split, fun j mem => ?_⟩
  simpa [Option.isSome_iff_ne_none] using lowest j (below j mem)

/-- Settles O40: a ready start is the bind of the lowest unbound engine with the taking of its zones. -/
theorem startBindsAnnouncement : Obligations.StartBindsAnnouncement := by
  intro s i e a up record due
  subst record
  have row : exec (.start i) s = .next (s.takeStart i) := congrArg _ (State.whenRunning_up up _)
  rw [row, State.takeStart, if_pos due]
  refine ⟨fun ready unbound lowest => ?_, fun unready => ?_⟩
  · obtain ⟨zones, stages, eq, at_⟩ := s.startOn_eq i e
    simp only [(s.readyToStart_iff i).mpr ready, State.freeEngine_eq unbound lowest, if_true, eq]
    refine ⟨_, rfl, rfl, ?_, fun z => (at_ z).1, fun z => (at_ z).2, fun e' ne => ?_, ?_, ?_⟩
    · rw [bindEngine_record]
    · exact s.setEngine_get_other e e' _ ne
    · simp only [Fin.getElem_fin, Vector.getElem_set_self]
      exact bindEngine_engine _ _ _ _
    · intro n trim fault entry clip known
      simp only [Fin.getElem_fin, Vector.getElem_set_self]
      exact bindEngine_clip _ _ clip known
  · have notReady : s.readyToStart i = false := by
      refine Bool.eq_false_iff.mpr fun ready => ?_
      obtain ⟨granted, ready⟩ := (s.readyToStart_iff i).mp ready
      obtain other | ⟨z, mem, bad⟩ := unready
      · exact other granted
      · obtain ⟨owner, bias, fade⟩ := ready z mem
        obtain bad | bad | bad := bad
        exacts [bad owner, bad bias, bad fade]
    simp only [notReady]
    rfl

end Sys2Proof.Machine

/-! ## Chapter 2 proofs: the starts that a release makes due -/

namespace Sys2Proof.Machine

/-! ### Claims of one announcement -/

/-- The announcement in slot j is the claimant of exactly its effective zones while it is GRANTED, and of none
otherwise: what the law of zones says of one slot's claims (R32). -/
def State.ClaimsOwn (s : State) (j : SlotId) : Prop :=
  ∀ z : Zone, (∃ h, s.zones[z].claimant = some h ∧ handleSlot h = j)
    ↔ s.slots[j].state = .granted ∧ inZones s.slots[j].effZones z = true

theorem State.ClaimLaw.claimsOwn {s : State} (law : s.ClaimLaw nobody) (j : SlotId) : s.ClaimsOwn j := by
  refine fun z => ⟨fun ⟨h, eq, at_⟩ => ?_, fun ⟨granted, mem⟩ => ?_⟩
  · obtain ⟨rfl, granted⟩ := law.claimant_at eq at_
    exact ⟨granted, (law.claims_iff (nofun) granted z).mpr eq⟩
  · exact ⟨_, (law.claims_iff (nofun) granted z).mp mem, handleSlot_handleAt s j⟩

/-- A record that differs in its due start alone claims the same. -/
theorem State.ClaimsOwn.of_due {s t : State} {j : SlotId} (own : s.ClaimsOwn j)
    (claimant : ∀ z : Zone, t.zones[z].claimant = s.zones[z].claimant)
    (due : ∃ due : Bool, t.slots[j] = { s.slots[j] with startDue := due }) : t.ClaimsOwn j := by
  obtain ⟨due, eq⟩ := due
  intro z
  rw [claimant, eq]
  exact own z

/-- Whether an announcement is ready to start is seen at its effective zones alone (R41). -/
theorem State.readyToStart_congr {s t : State} {j : SlotId}
    (due : ∃ due : Bool, t.slots[j] = { s.slots[j] with startDue := due })
    (same : ∀ z : Zone, s.slots[j].state = .granted → inZones s.slots[j].effZones z = true →
      t.zones[z].owner = s.zones[z].owner ∧ t.stages[z] = s.stages[z]) :
    t.readyToStart j = s.readyToStart j := by
  obtain ⟨due, eq⟩ := due
  refine Bool.eq_iff_iff.mpr ?_
  rw [State.readyToStart_iff, State.readyToStart_iff, eq]
  refine and_congr_right fun granted => forall_congr' fun z => imp_congr_right fun mem => ?_
  rw [(same z granted mem).1, (same z granted mem).2]

/-! ### The due starts -/

/-- The start check of a zone makes the start of its claimant due where that is ready (R41). -/
theorem State.startCheckZone_due (s : State) (z : Zone) (j : SlotId) :
    (s.startCheckZone z).slots[j].startDue = true
      ↔ s.slots[j].startDue = true
        ∨ ((∃ h, s.zones[z].claimant = some h ∧ handleSlot h = j) ∧ s.readyToStart j = true) := by
  unfold State.startCheckZone
  split
  · next h claims =>
    rw [State.startCheck_eq]
    by_cases e : j = handleSlot h
    · subst e
      rw [State.setSlot_get_self, Bool.or_eq_true]
      exact or_congr_right ⟨fun ready => ⟨⟨h, claims, rfl⟩, ready⟩, And.right⟩
    · rw [State.setSlot_get_other _ _ _ _ e]
      refine ⟨.inl, fun due => due.resolve_right fun ⟨⟨h', eq, at_⟩, _⟩ => e ?_⟩
      rw [← at_, Option.some.inj (claims.symm.trans eq)]
  · next unclaimed =>
    refine ⟨.inl, fun due => due.resolve_right fun ⟨⟨h, eq, _⟩, _⟩ => ?_⟩
    rw [unclaimed] at eq
    cases eq

/-- The owner of a zone leaves: a start becomes due where the zone's claimant is ready afterwards (R41). -/
theorem State.dropOwner_due {s : State} {j : SlotId} (own : s.ClaimsOwn j) (z : Zone) :
    (s.dropOwner z).slots[j].startDue = true
      ↔ s.slots[j].startDue = true
        ∨ (inZones s.slots[j].effZones z = true ∧ (s.dropOwner z).readyToStart j = true) := by
  have settled : ∃ u : State, s.dropOwner z = u.startCheckZone z ∧ u.slots = s.slots
      ∧ u.zones[z].claimant = s.zones[z].claimant := by
    refine ⟨_, rfl, ?_, ?_⟩ <;> rw [State.settleIdle_eq]
    · rfl
    · simp [State.setStage, State.setZone]
  obtain ⟨u, eq, slots, claimant⟩ := settled
  obtain ⟨slots', frame, due⟩ := u.startCheckZone_frame z
  have ready : (u.startCheckZone z).readyToStart j = u.readyToStart j := by
    rw [frame]
    exact State.readyToStart_congr (due j) fun _ _ _ => ⟨rfl, rfl⟩
  rw [eq, ready, State.startCheckZone_due, slots, claimant, own z]
  refine or_congr_right ⟨fun ⟨⟨_, mem⟩, ready⟩ => ⟨mem, ready⟩, fun ⟨mem, ready⟩ => ⟨⟨?_, mem⟩, ready⟩⟩
  rw [← slots]
  exact ((u.readyToStart_iff j).mp ready).1

/-- Releasing an announcement's zones of a list makes the starts due that wait for one of them and are ready after the
last: what one loss of an owner makes ready, the later ones leave ready (R41). -/
theorem State.releaseZones_due_list (h : Handle) (j : SlotId) :
    ∀ (l : List Zone) (s : State), l.Nodup → s.ClaimsOwn j → ∀ t : State,
      l.foldl (fun t z => if t.zones[z].owner = some h then t.dropOwner z else t) s = t →
      (t.slots[j].startDue = true
        ↔ s.slots[j].startDue = true
          ∨ (t.readyToStart j = true
            ∧ ∃ z ∈ l, inZones s.slots[j].effZones z = true ∧ s.zones[z].owner = some h))
  | [], s, _, _ => by rintro t rfl; simp
  | y :: rest, s, nodup, own => by
    intro t fold
    obtain ⟨fresh, nodup⟩ := List.nodup_cons.mp nodup
    rw [List.foldl_cons] at fold
    by_cases owns : s.zones[y].owner = some h
    · rw [if_pos owns] at fold
      obtain ⟨slots1, eq1, due1⟩ := s.dropOwner_frame y
      have now := State.dropOwner_due own y
      generalize s.dropOwner y = u at eq1 now fold
      have zone (z : Zone) (other : z ≠ y) : u.zones[z] = s.zones[z] := by
        rw [eq1]; exact s.setZone_get_other y z _ other
      have record : ∃ due : Bool, u.slots[j] = { s.slots[j] with startDue := due } := by rw [eq1]; exact due1 j
      have own' : u.ClaimsOwn j := by
        refine own.of_due (fun z => ?_) record
        by_cases e : z = y
        · subst e; rw [eq1]; simp
        · rw [zone z e]
      have later := State.releaseZones_due_list h j rest u nodup own' t fold
      obtain ⟨zones, stages, slots, eq, due, at_⟩ := State.releaseZones_list h rest u nodup
      rw [fold] at eq
      have record' : ∃ due : Bool, t.slots[j] = { u.slots[j] with startDue := due } := by rw [eq]; exact due j
      have effZones : u.slots[j].effZones = s.slots[j].effZones := by
        obtain ⟨_, eq⟩ := record
        rw [eq]
      have waits : (∃ z ∈ rest, inZones u.slots[j].effZones z = true ∧ u.zones[z].owner = some h)
          ↔ ∃ z ∈ rest, inZones s.slots[j].effZones z = true ∧ s.zones[z].owner = some h := by
        refine exists_congr fun z => and_congr_right fun mem => ?_
        rw [effZones, zone z fun e => fresh (e ▸ mem)]
      have stable (settled : u.readyToStart j = true
          ∨ ¬ ∃ z ∈ rest, inZones u.slots[j].effZones z = true ∧ u.zones[z].owner = some h) :
          t.readyToStart j = u.readyToStart j := by
        refine State.readyToStart_congr record' fun z granted mem => ?_
        obtain ⟨claimant, claims, -⟩ := (own' z).mpr ⟨granted, mem⟩
        rw [eq, (at_ z).1, (at_ z).2, claims]
        refine ⟨?_, if_neg fun ⟨_, _, unclaimed, _⟩ => nomatch unclaimed⟩
        split
        · next released =>
          obtain ready | none_waits := settled
          · exact (((u.readyToStart_iff j).mp ready).2 z mem).1.symm
          · exact absurd ⟨z, released.1, mem, released.2⟩ none_waits
        · rfl
      rw [waits] at later stable
      simp only [List.exists_mem_cons_iff, owns, and_true]
      rw [later, now]
      by_cases waiting : ∃ z ∈ rest, inZones s.slots[j].effZones z = true ∧ s.zones[z].owner = some h
      · by_cases ready : u.readyToStart j = true
        · simp only [waiting, ready, stable (.inl ready), and_true, or_true]
        · simp only [waiting, ready, and_false, Bool.false_eq_true, or_false, or_true, and_true]
      · simp only [waiting, stable (.inr waiting), and_false, or_false]
        exact or_congr_right and_comm
    · rw [if_neg owns] at fold
      have later := State.releaseZones_due_list h j rest s nodup own t fold
      simpa only [List.exists_mem_cons_iff, owns, and_false, false_or] using later

/-- Releasing an announcement's zones makes the starts due that wait for one of them and are ready then (R41). -/
theorem State.releaseZones_due {s : State} (h : Handle) {j : SlotId} (own : s.ClaimsOwn j) :
    (s.releaseZones h).slots[j].startDue = true
      ↔ s.slots[j].startDue = true
        ∨ ((s.releaseZones h).readyToStart j = true
          ∧ ∃ z : Zone, inZones s.slots[j].effZones z = true ∧ s.zones[z].owner = some h) := by
  have all := State.releaseZones_due_list h j allZones s (by decide) own (s.releaseZones h) rfl
  simpa only [mem_allZones, true_and] using all

/-- An announcement that gives up zones and engine makes the starts due that wait for one of its zones and are ready
then (R41, R47, R50). -/
theorem State.giveUp_due {s : State} {i j : SlotId} (other : j ≠ i) (own : s.ClaimsOwn j) :
    (s.giveUp i).slots[j].startDue = true
      ↔ s.slots[j].startDue = true
        ∨ (s.slots[j].state = .granted ∧ (s.giveUp i).zonesReady s.slots[j].effZones
          ∧ ∃ z : Zone, inZones s.slots[j].effZones z = true ∧ s.zones[z].owner = some (s.handleAt i)) := by
  have released := State.releaseZones_due (s.handleAt i) own
  obtain ⟨_, _, _, eq, due, -⟩ := State.releaseZones_eq s (s.handleAt i)
  obtain ⟨due, record⟩ : ∃ due : Bool,
      (s.releaseZones (s.handleAt i)).slots[j] = { s.slots[j] with startDue := due } := by rw [eq]; exact due j
  rw [State.readyToStart_iff, record] at released
  have gone : (s.giveUp i).slots[j] = (s.releaseZones (s.handleAt i)).slots[j] ∧
      (s.giveUp i).zones = (s.releaseZones (s.handleAt i)).zones
      ∧ (s.giveUp i).stages = (s.releaseZones (s.handleAt i)).stages := by
    unfold State.giveUp
    generalize s.releaseZones (s.handleAt i) = u
    unfold State.unbindOf
    split <;> exact ⟨State.setSlot_get_other _ _ _ _ other, rfl, rfl⟩
  obtain ⟨slot, zones, stages⟩ := gone
  rw [slot, record, released, and_assoc]
  simp only [State.zonesReady, zones, stages]

/-! ### Completion -/

/-- Settles O42: giving up zones and engine, and then the freeing of the slot. -/
theorem completionFreesSlot : Obligations.CompletionFreesSlot := by
  intro s e h i a up reported bound slot handle record playing engine
  subst record handle
  have row : exec (.completion e) s = .next (s.takeCompletion e) := congrArg _ (State.whenRunning_up up _)
  have reporter : s.reporter e s.engines[e].completionDue = some i := by
    simp only [State.reporter, bound, reported, ← slot]
  obtain ⟨zones, stages, slots, eq, ⟨due, self⟩, others, at_⟩ := State.giveUp_some engine
  have starts (j : SlotId) (other : j ≠ i) (own : s.ClaimsOwn j) := State.giveUp_due other own
  rw [eq] at starts
  have taken : s.takeCompletion e = (({ s with
        zones := zones, stages := stages, slots := slots
        engines := s.engines.set e (Engine.idle (s.engines[e].epoch + 1#8)) } : State).freeSlot i .completed).requestPass := by
    simp only [State.takeCompletion, reporter]
    rw [if_pos ⟨playing, engine⟩, eq]
  have kept (j : SlotId) (other : j ≠ i) (x : Slot) : (slots.set i x)[j] = slots[j] :=
    ({ s with slots := slots } : State).setSlot_get_other i j x other
  refine ⟨_, row.trans (congrArg _ (taken.trans (congrArg _ (State.freeSlot_eq _ _ _)))), ?_, ?_, fun j other => ?_, ?_, at_⟩
  · simp only [State.handleAt, self]
    rfl
  · exact (State.setSlot_get_self _ _ _).trans (by simp only [self])
  · obtain ⟨due, eq⟩ := others j other
    exact ⟨due, (kept j other _).trans eq⟩
  · intro law j other
    refine Iff.trans ?_ (starts j other (law.claimLaw.claimsOwn j))
    exact iff_of_eq (congrArg (fun x : Slot => x.startDue = true) (kept j other _))

end Sys2Proof.Machine

/-! ## Chapter 3 rules: the play side at a frame, boundary by boundary -/

namespace Sys2Proof.Machine

/-! ### The fetch cursor's walk within a frame -/

/-- A walk never stops in a clip's data (R62, R64, R65). -/
theorem walkFetch_phase (repeatCount playSeg : Nat) :
    ∀ (fuel : Nat) (l : List Segment) (c : FetchCursor), (walkFetch repeatCount playSeg fuel l c).2.phase ≠ .data
  | 0, _, _ => nofun
  | fuel + 1, l, c => by
    unfold walkFetch
    split
    · split
      · simp only
        split
        · nofun
        · exact walkFetch_phase repeatCount playSeg fuel _ _
      · nofun
    · split
      · exact walkFetch_phase repeatCount playSeg fuel _ _
      · nofun

/-- From b to c at most the fetch cursor has walked on, clearing fault marks; it stands where it was unless it was
WAITING, and does not come into a clip's data (R64). -/
structure Bound.Walked (b c : Bound) : Prop where
  eng : c.eng = { b.eng with fetch := c.eng.fetch }
  slot : c.slot = { b.slot with segments := c.slot.segments }
  same : SameSegments b.slot.segments c.slot.segments
  kept : b.eng.fetch.phase ≠ .waiting → c = b
  data : c.eng.fetch.phase = .data → b.eng.fetch.phase = .data

theorem Bound.retryFetch_walked (b : Bound) : b.Walked b.retryFetch := by
  unfold Bound.retryFetch
  split
  · next waiting => exact ⟨rfl, rfl, sameSegments_walkFetch _ _ _ _ _, absurd waiting,
      fun data => absurd data (walkFetch_phase _ _ _ _ _)⟩
  · exact ⟨rfl, rfl, rfl, fun _ => rfl, id⟩

/-- Lists that agree apart from fault marks have the same GAPs. -/
theorem SameSegments.gap {l m : List Segment} (same : SameSegments l m) {k ms : Nat} (gap : l[k]? = some (.gap ms)) :
    m[k]? = some (.gap ms) := by
  have unmarked := congrArg (·[k]?) same
  simp only [List.getElem?_map, gap] at unmarked
  cases found : m[k]? with
  | none => simp [found] at unmarked
  | some segment => cases segment <;> simp_all [Segment.withFault]

/-! ### The play position -/

/-- The play position once the play cursor has come to stand at c (R7, R70). -/
def Slot.positionAt (a : Slot) (c : PlayCursor) : Position := if a.state = .playing then ⟨c.seg, c.pass⟩ else a.playPos

/-- The cursor of an engine moves, a WAITING fetch cursor tries again, and the play position is written (R64, R70). -/
theorem Play.writePosition_retry (q : Play) :
    ∃ c : Bound, Bound.Walked ⟨q.eng, { q.slot with playPos := q.slot.positionAt q.eng.play }⟩ c
      ∧ ({ q with bound := q.bound.retryFetch } : Play).writePosition = { q with bound := c } := by
  obtain ⟨eng, slot, same, kept, data⟩ := q.bound.retryFetch_walked
  generalize q.bound.retryFetch = c at eng slot same kept data
  have play : c.eng.play = q.eng.play := (congrArg Engine.play eng :)
  have state : c.slot.state = q.slot.state := (congrArg Slot.state slot :)
  have position : c.slot.playPos = q.slot.playPos := (congrArg Slot.playPos slot :)
  refine ⟨⟨c.eng, { c.slot with playPos := q.slot.positionAt q.eng.play }⟩, ⟨eng, ?_, same, fun still => ?_, data⟩, ?_⟩
  · exact congrArg (fun a : Slot => { a with playPos := q.slot.positionAt q.eng.play }) slot
  · rw [kept still]; rfl
  · have c_eng : ({ q with bound := c } : Play).eng = c.eng := rfl
    have c_slot : ({ q with bound := c } : Play).slot = c.slot := rfl
    rw [Play.writePosition, c_eng, c_slot, play, state, Slot.positionAt]
    split
    · rfl
    · rw [← position]

/-! ### The boundaries -/

/-- The play cursor leaves a segment for the next one of the pass (R68, R70). -/
theorem Play.leave_next {p : Play} (more : p.eng.play.seg + 1 < p.slot.segments.length) :
    ∃ c : Bound, p.leave = { p with bound := c } ∧ Bound.Walked
      ⟨{ p.eng with play := { p.eng.play with seg := p.eng.play.seg + 1 }, progress := .fresh, clipPos := 0 },
        { p.slot with playPos := p.slot.positionAt { p.eng.play with seg := p.eng.play.seg + 1 } }⟩ c := by
  obtain ⟨c, walked, eq⟩ := Play.writePosition_retry (p.withEng
    { p.eng with play := { p.eng.play with seg := p.eng.play.seg + 1 }, progress := .fresh, clipPos := 0 })
  refine ⟨c, ?_, walked⟩
  rw [Play.leave, if_pos more]
  exact eq

/-- The play cursor leaves the last segment of a pass for the next pass, with no repeat gap (R68, R70). -/
theorem Play.leave_again {p : Play} (last : p.slot.segments.length ≤ p.eng.play.seg + 1)
    (more : passesRemain p.slot.repeatCount p.eng.play.pass = true) (noGap : p.slot.repeatGap = 0) :
    ∃ c : Bound, p.leave = { p with bound := c } ∧ Bound.Walked
      ⟨{ p.eng with
          play := { pass := satSucc255 p.eng.play.pass, seg := 0, stage := .segment }, progress := .fresh, clipPos := 0
          fetch := { p.eng.fetch with lap := .same } },
        { p.slot with
          playPos := p.slot.positionAt { pass := satSucc255 p.eng.play.pass, seg := 0, stage := .segment } }⟩ c := by
  obtain ⟨c, walked, eq⟩ := Play.writePosition_retry (p.withEng
    { p.eng with
      play := { pass := satSucc255 p.eng.play.pass, seg := 0, stage := .segment }, progress := .fresh, clipPos := 0
      fetch := { p.eng.fetch with lap := .same } })
  refine ⟨c, ?_, walked⟩
  simp only [Play.leave, if_neg (Nat.not_lt.mpr last), more, noGap, if_true]
  exact eq

/-- The play cursor leaves the last segment of a pass for the repeat gap before the next one (R76). -/
theorem Play.leave_gap {p : Play} (last : p.slot.segments.length ≤ p.eng.play.seg + 1)
    (more : passesRemain p.slot.repeatCount p.eng.play.pass = true) (gap : p.slot.repeatGap ≠ 0) :
    ∃ c : Bound, p.leave = { p with bound := c } ∧ Bound.Walked
      ⟨{ p.eng with
          play := { pass := satSucc255 p.eng.play.pass, seg := 0, stage := .repeatGap }, progress := .begun, clipPos := 0
          framesRemaining := 480 * p.slot.repeatGap, dec := p.eng.dec.enterGap
          fetch := { p.eng.fetch with lap := .same } },
        { p.slot with
          playPos := p.slot.positionAt { pass := satSucc255 p.eng.play.pass, seg := 0, stage := .repeatGap } }⟩ c := by
  obtain ⟨c, walked, eq⟩ := Play.writePosition_retry (p.withEng
    { p.eng with
      play := { pass := satSucc255 p.eng.play.pass, seg := 0, stage := .repeatGap }, progress := .begun, clipPos := 0
      framesRemaining := 480 * p.slot.repeatGap, dec := p.eng.dec.enterGap
      fetch := { p.eng.fetch with lap := .same } })
  refine ⟨c, ?_, walked⟩
  have inGap : (p.slot.repeatGap != 0) = true := by simpa using gap
  simp only [Play.leave, if_neg (Nat.not_lt.mpr last), more, inGap, if_true]
  exact eq

/-! ### What the play side does where its cursor stands -/

section playLoop
variable {d : Directory} {fuel : Nat} {p : Play}

/-- A play side that has ENDED gives zero (R77). -/
theorem playLoop_ended (stage : p.eng.play.stage = .ended) : playLoop d (fuel + 1) p = (p, 0) := by
  rw [playLoop, stage]

/-- A GAP under the cursor that has given its last frame is left (R71). -/
theorem playLoop_gap_over (stage : p.eng.play.stage = .segment) {ms : Nat}
    (gap : p.slot.segments[p.eng.play.seg]? = some (.gap ms)) (passed : p.eng.gapPassed) :
    playLoop d (fuel + 1) p = playLoop d fuel p.leave := by
  have given : p.eng.gapOver = true := (Engine.gapOver_iff _).mpr passed
  simp only [playLoop, stage, gap, given, if_true]

/-- The first frame of a GAP (R71, R98). -/
theorem playLoop_gap_first (stage : p.eng.play.stage = .segment) {ms : Nat}
    (gap : p.slot.segments[p.eng.play.seg]? = some (.gap ms)) (fresh : p.eng.progress = .fresh) :
    playLoop d (fuel + 1) p
      = (p.withEng { p.eng with
          framesRemaining := 48 * ms - 1, progress := .begun, dec := { p.eng.dec with previous := 0 } }, 0) := by
  have entered : p.eng.gapOver = false := by simp [Engine.gapOver, fresh]
  simp only [playLoop, stage, gap, entered, fresh, if_true, Bool.false_eq_true, if_false]
  rfl

/-- The first frame of a repeat gap (R76). -/
theorem playLoop_repeatGap_first (stage : p.eng.play.stage = .repeatGap) (begun : p.eng.progress = .begun)
    (frames : p.eng.framesRemaining ≠ 0) :
    playLoop d (fuel + 1) p = (p.withEng { p.eng with framesRemaining := p.eng.framesRemaining - 1 }, 0) := by
  have entered : p.eng.gapOver = false := by simp [Engine.gapOver, begun, frames]
  simp only [playLoop, stage, entered, Bool.false_eq_true, if_false, Play.gapFrame, ← begun]

/-- A repeat gap that has given its last frame is left for the pass's first segment (R76). -/
theorem playLoop_repeatGap_over (stage : p.eng.play.stage = .repeatGap) (passed : p.eng.gapPassed) :
    playLoop d (fuel + 1) p
      = playLoop d fuel
        (p.withEng { p.eng with play := { p.eng.play with stage := .segment }, progress := .fresh }) := by
  have given : p.eng.gapOver = true := (Engine.gapOver_iff _).mpr passed
  simp only [playLoop, stage, given, if_true]

/-- A MARK under the cursor is passed (R72). -/
theorem playLoop_mark (stage : p.eng.play.stage = .segment) {value : Byte}
    (mark : p.slot.segments[p.eng.play.seg]? = some (.mark value)) :
    playLoop d (fuel + 1) p = playLoop d fuel (p.passMark value).leave := by
  simp only [playLoop, stage, mark]

end playLoop

/-! ### Samples of a CLIP -/

/-- The frames that a decoded sample covers (R97). -/
theorem framesPerSample_eq {rate : Byte} {k : Nat} (covers : coversFrames rate k) : framesPerSample rate = k ∧ k ≠ 0 := by
  have byte (n : Nat) (small : n < 256) (h : rate.toNat = n) : rate = BitVec.ofNat 8 n :=
    BitVec.eq_of_toNat_eq (by simpa [Nat.mod_eq_of_lt small] using h)
  simp only [coversFrames, List.mem_cons, Prod.mk.injEq, List.not_mem_nil, or_false] at covers
  rcases covers with ⟨h, rfl⟩ | ⟨h, rfl⟩ | ⟨h, rfl⟩ | ⟨h, rfl⟩ | ⟨h, rfl⟩ <;> rw [byte _ (by decide) h] <;> decide

/-- The trimmed value, in the two ways of writing its range (R99). -/
theorem trimmed_eq (value : Int) (trim : Nat) : trimmed value trim = trimmedTo trim value := by
  simp only [trimmed, clampSample, clampInt, trimmedTo]
  split
  · omega
  · split <;> omega

/-- A sample that is taken leaves the line's previous sample, and the ring gives up its head (R96, R97). -/
theorem takesSample_leaves {coding : Byte} {d after : Decoder} {left : Nat} {ring rest : List Byte} {sample : Int}
    (takes : takesSample coding d left ring rest sample after) :
    after.previous = d.previous ∧ ring.drop (ring.length - rest.length) = rest := by
  obtain ⟨-, rfl, b, rfl, -⟩ | ⟨-, rfl, lo, hi, rfl, -⟩ | ⟨-, -, block⟩ := takes
  · exact ⟨rfl, by simp⟩
  · exact ⟨rfl, by simp [show rest.length + 1 + 1 - rest.length = 2 by omega]⟩
  · obtain ⟨-, lo, hi, index, b, more, start, rfl, rfl, -, -, rfl⟩ | ⟨-, -, b, more, rfl, rfl, rfl⟩
      | ⟨-, -, b, rfl, rfl⟩ := block
    · exact ⟨rfl, by simp⟩
    · exact ⟨rfl, by simp⟩
    · exact ⟨rfl, by simp⟩

/-- The run of a clip's last sample has given all its frames (R97). -/
theorem Play.clipFrame_over {p : Play} {entry : ClipEntry} (trim : Option Nat)
    (covers : coversFrames entry.rate p.eng.dec.phase) (whole : p.eng.clipPos = entry.length) :
    p.clipFrame entry trim
      = .over (p.withEng { p.eng with dec := { p.eng.dec with previous := p.eng.dec.current, phase := 0 } }) := by
  obtain ⟨frames, some_⟩ := framesPerSample_eq covers
  simp only [Play.clipFrame, frames, Nat.lt_irrefl, and_false, if_false, whole, some_, ne_eq, not_false_eq_true, and_self,
    if_true, Decoder.endRun]

/-- The first frame of the next decoded sample of a clip (R70, R97, R99). -/
theorem Play.clipFrame_first {p : Play} {entry : ClipEntry} {trim : Option Nat} {k : Nat} {rest : List Byte}
    {sample : Int} {after : Decoder} (phase : p.eng.dec.phase = 0) (covers : coversFrames entry.rate k)
    (takes : takesSample entry.coding p.eng.dec (entry.length - p.eng.clipPos) p.eng.ring rest sample after) :
    p.clipFrame entry trim = .output
      (p.withEng { p.eng with
        dec := { after with current := sample, phase := 1 }, ring := rest
        clipPos := p.eng.clipPos + (p.eng.ring.length - rest.length) }).resume
      (trimmedTo (trim.getD entry.trim.toNat) (p.eng.dec.previous + (sample - p.eng.dec.previous).tdiv k)) := by
  obtain ⟨previous, dropped⟩ := takesSample_leaves takes
  have standing : p.eng.dec.endRun = p.eng.dec := if_pos phase
  simp only [Play.clipFrame, phase, ne_eq, not_true, false_and, if_false, standing,
    takeSample_of_takesSample takes, dropped, (framesPerSample_eq covers).1, Decoder.beginRun, converted, previous,
    trimmed_eq, Nat.cast_one, mul_one]

section playLoop
variable {d : Directory} {fuel : Nat} {p : Play}

/-- The first frame of a CLIP that the play cursor enters, its first sample taken with no run in progress (R70, R85). -/
theorem playLoop_clip_first (stage : p.eng.play.stage = .segment) {n k : Nat} {trim : Option Nat} {entry : ClipEntry}
    {rest : List Byte} {sample : Int} {after : Decoder}
    (clip : p.slot.segments[p.eng.play.seg]? = some (.clip n trim false)) (known : d.entries[n]? = some entry)
    (fresh : p.eng.progress = .fresh) (phase : p.eng.dec.phase = 0) (covers : coversFrames entry.rate k)
    (takes : takesSample entry.coding { p.eng.dec with blockPos := 0, blockLen := 0, nibble := .low } entry.length
      p.eng.ring rest sample after) :
    playLoop d (fuel + 1) p
      = ((p.withEng { p.eng with
          progress := .begun, dec := { after with current := sample, phase := 1 }, ring := rest
          clipPos := p.eng.ring.length - rest.length }).resume,
        trimmedTo (trim.getD entry.trim.toNat) (p.eng.dec.previous + (sample - p.eng.dec.previous).tdiv k)) := by
  have found : d.entry n = entry := by simp [Directory.entry, known]
  have first := Play.clipFrame_first (p := p.enterClip) (trim := trim) (entry := entry) (k := k) (rest := rest)
    (sample := sample) (after := after)
    (by rw [Play.enterClip_fresh fresh]; exact phase) covers (by rw [Play.enterClip_fresh fresh]; exact takes)
  simp only [playLoop, stage, clip, Bool.false_eq_true, if_false, found, first]
  rw [Play.enterClip_fresh fresh]
  simp only [Play.withEng, Play.eng, Decoder.enterClip, Nat.zero_add]

/-- The play cursor leaves its segment in this frame (R68). -/
theorem playLoop_leaves {after : Decoder} (leaves : p.eng.leavesSegment d p.slot.segments after) :
    playLoop d (fuel + 1) p = playLoop d fuel (p.withEng { p.eng with dec := after }).leave := by
  obtain ⟨stage, ⟨ms, gap, passed, rfl⟩ | ⟨n, trim, entry, clip, known, covers, begun, whole, rfl⟩⟩ := leaves
  · exact playLoop_gap_over stage gap passed
  · have found : d.entry n = entry := by simp [Directory.entry, known]
    have inside : p.enterClip = p := Play.enterClip_begun (by rw [begun]; decide)
    simp only [playLoop, stage, clip, Bool.false_eq_true, if_false, found, inside, Play.clipFrame_over trim covers whole]

end playLoop

/-! ### A frame of an engine that plays -/

/-- The engine's play side does at this frame what RUNNING does (R56, R78, R80). -/
abbrev Engine.Plays (g : Engine) : Prop :=
  g.state = .running ∨ g.state = .stalled ∨ (g.state = .fading ∧ g.fadePriming = false ∧ g.fadePos < 256)

/-- What the fade does to the engine's record at a frame, after its play side (R80). -/
def Engine.fadeStep (was e : Engine) : Engine := if was.state = .fading then e.advanceFade else e

theorem Engine.withdrawUngranted_frame (e : Engine) :
    e.withdrawUngranted = { e with request := e.withdrawUngranted.request } := by
  unfold Engine.withdrawUngranted
  split
  · split <;> rfl
  · rfl

theorem Engine.advanceFade_frame (e : Engine) :
    e.advanceFade = { e with fadePos := e.fadePos + 1, request := e.advanceFade.request } := by
  simp only [Engine.advanceFade]
  split
  · rw [Engine.withdrawUngranted_frame]
  · rfl

/-- The fade moves its position, and may withdraw a request. -/
theorem Engine.fadeStep_frame (was e : Engine) :
    was.fadeStep e = { e with
      fadePos := if was.state = .fading then e.fadePos + 1 else e.fadePos, request := (was.fadeStep e).request } := by
  unfold Engine.fadeStep
  split
  · exact e.advanceFade_frame
  · rfl

/-- A frame of an engine that plays: its play side's frame, scaled in a fade (R56, R80). -/
theorem Play.frame_plays {d : Directory} {p q : Play} {sample : Int} (plays : p.eng.Plays) (run : p.run d = (q, sample)) :
    p.frame d = (q.withEng (p.eng.fadeStep q.eng), p.eng.handsOn sample) := by
  obtain state | state | ⟨state, primed, short⟩ := plays
  · simp only [Play.frame, state, run, Engine.fadeStep, Engine.handsOn]
    rfl
  · simp only [Play.frame, state, run, Engine.fadeStep, Engine.handsOn]
    rfl
  · have cleared : (p.withEng { p.eng with state := .fading, fadePriming := false }).run d = (q, sample) := by
      rw [← primed, ← state]; exact run
    simp only [Play.frame, state, Nat.not_le.mpr short, if_false, primed, Bool.false_and, Bool.false_eq_true, cleared,
      Engine.fadeStep, Engine.handsOn, if_true]
    rfl

/-- Offers of several blocks of which at most one has records: they are taken in their order (R164). -/
theorem mergeOffers_alone {f : EngineId → List EventRecord} {e : EngineId} (others : ∀ e' : EngineId, e' ≠ e → f e' = [])
    (queue : EventQueue) (c : Nat) :
    (mergeOffers ((allEngines.map f).map List.length).sum (allEngines.map f) queue c).1
      = (f e).foldl EventQueue.offer queue := by
  cases records : f e with
  | nil =>
    rw [mergeOffers_nothing]
    · rfl
    · intro l mem
      obtain ⟨e', -, rfl⟩ := List.mem_map.mp mem
      by_cases same : e' = e
      · rw [same, records]
      · exact others e' same
  | cons r rest =>
    have some_ : f e ≠ [] := by rw [records]; nofun
    have one : (allEngines.map f).filter (fun l => !l.isEmpty) = [f e] := by
      have mine : allEngines.filter ((fun l => !l.isEmpty) ∘ f) = allEngines.filter fun e' => decide (e' = e) := by
        refine List.filter_congr fun e' _ => ?_
        by_cases same : e' = e
        · simp [same, records]
        · simp [same, others e' same]
      have single : ∀ e : EngineId, (allEngines.filter fun e' => decide (e' = e)) = [e] := by decide
      rw [List.filter_map, mine, single, List.map_singleton]
    obtain ⟨n, total⟩ := Nat.exists_eq_succ_of_ne_zero
      (n := ((allEngines.map f).map List.length).sum) fun none_ => some_ <| List.eq_nil_of_length_eq_zero <|
        List.sum_eq_zero_iff.mp none_ _ (List.mem_map_of_mem (List.mem_map_of_mem (mem_allEngines e)))
    rw [total, mergeOffers_one n _ _ queue c one, records]

/-- The play side of a bound engine as a frame begins. -/
def State.playAt (s : State) (e : EngineId) (h : Handle) : Play :=
  { bound := { eng := s.engines[e], slot := s.slots[handleSlot h] }, handle := h, events := [], pass := false }

section takeFrame
variable {s : State} {e : EngineId} {h : Handle} {q : Play} {sample : Int}

/-- What a frame leaves of an engine that plays: its play side's work, the fade's step, and the evaluation of R61. -/
theorem State.engineFrame_plays (bound : s.engines[e].binding = some h) (plays : s.engines[e].Plays)
    (run : (s.playAt e h).run s.dir = (q, sample)) :
    s.engineFrame e =
      { eng := ((⟨s.engines[e].fadeStep q.eng, q.slot⟩ : Bound).considerRequest s.dir).eng
        slot := some (handleSlot h, q.slot), sample := s.engines[e].handsOn sample, events := q.events, pass := q.pass } := by
  rw [State.engineFrame_eq bound]
  have frame := Play.frame_plays (p := s.playAt e h) plays run
  simp only [State.playAt] at frame
  simp only [frame, Bound.considerRequest_slot]
  rfl

variable (law : s.BindingLaw) (bound : s.engines[e].binding = some h) (plays : s.engines[e].Plays)
  (run : (s.playAt e h).run s.dir = (q, sample))
include law bound plays run

/-- The announcement's record after a frame is its play side's. -/
theorem State.takeFrame_slot_plays : s.takeFrame.slots[handleSlot h] = q.slot :=
  State.takeFrame_slot law bound (by rw [State.engineFrame_plays bound plays run])

omit law

/-- The engine's record after a frame: its play side's, with the fade's step and the request that R61 asks for. -/
theorem State.takeFrame_engine_plays :
    s.takeFrame.engines[e] = ((⟨s.engines[e].fadeStep q.eng, q.slot⟩ : Bound).considerRequest s.dir).eng := by
  rw [State.takeFrame_engine, State.engineFrame_plays bound plays run]

/-- The engine's record after a frame, but for its request. -/
theorem State.takeFrame_engine_frame :
    ∃ r, s.takeFrame.engines[e] = { q.eng with
      fadePos := if s.engines[e].state = .fading then q.eng.fadePos + 1 else q.eng.fadePos, request := r } := by
  rw [State.takeFrame_engine_plays bound plays run]
  obtain ⟨r, eq⟩ := Bound.considerRequest_frame ⟨s.engines[e].fadeStep q.eng, q.slot⟩ s.dir
  refine ⟨r, ?_⟩
  rw [eq, Engine.fadeStep_frame]

theorem State.engineFrame_sample : (s.engineFrame e).sample = s.engines[e].handsOn sample := by
  rw [State.engineFrame_plays bound plays run]

variable (only : ∀ e' : EngineId, e' ≠ e → s.engines[e'].binding = none)
include only

/-- Where no other engine is bound, a frame queues the engine's own records, and requests a pass where the engine
does (R164). -/
theorem State.takeFrame_alone :
    s.takeFrame.events = q.events.foldl EventQueue.offer s.events ∧ s.takeFrame.passPending = (s.passPending || q.pass) := by
  have mine := State.engineFrame_plays bound plays run
  have others (e' : EngineId) (ne : e' ≠ e) := State.engineFrame_events_unbound (only e' ne)
  constructor
  · have offers : s.takeFrame.events = (mergeOffers ((allEngines.map fun e' => s.engineFrames[e'].events).map
        List.length).sum (allEngines.map fun e' => s.engineFrames[e'].events) s.events s.choices).1 := rfl
    simp only [Fin.getElem_fin, State.engineFrames_get] at offers
    rw [offers, mergeOffers_alone (e := e) fun e' ne => (others e' ne).1, mine]
  · rw [State.takeFrame_eq]
    simp only [Fin.getElem_fin, State.engineFrames_get]
    congr 1
    refine Bool.eq_iff_iff.mpr ?_
    simp only [List.any_eq_true, mem_allEngines, true_and]
    refine ⟨fun ⟨e', requests⟩ => ?_, fun requests => ⟨e, by rw [mine]; exact requests⟩⟩
    by_cases same : e' = e
    · rw [same, mine] at requests
      exact requests
    · rw [(others e' same).2] at requests
      cases requests

end takeFrame

end Sys2Proof.Machine

/-! ## Chapter 3 proofs: the frame that crosses segment boundaries -/

namespace Sys2Proof.Machine

/-- The walk leaves two fields to say: where the fetch cursor stands, and the fault marks. -/
theorem Bound.Walked.form {b c : Bound} (walked : b.Walked c) :
    ∃ (f : FetchCursor) (l : List Segment),
      c = ⟨{ b.eng with fetch := f }, { b.slot with segments := l }⟩ ∧ SameSegments b.slot.segments l
        ∧ (b.eng.fetch.phase ≠ .waiting → f = b.eng.fetch ∧ l = b.slot.segments) := by
  obtain ⟨eng, slot, same, kept, -⟩ := walked
  refine ⟨c.eng.fetch, c.slot.segments, ?_, same, fun still => by rw [kept still]; exact ⟨rfl, rfl⟩⟩
  rw [← eng, ← slot]

/-- A fetch cursor that is not WAITING stays where it is. -/
theorem Bound.Walked.still {b c : Bound} (walked : b.Walked c) (phase : b.eng.fetch.phase ≠ .waiting) : c = b :=
  walked.kept phase

theorem exec_frame {s : State} (up : s.resetnLow = false) : exec .frame s = .next s.takeFrame :=
  congrArg _ (State.whenRunning_up up _)

/-! ### A MARK between two GAPs -/

/-- The play side of a PLAYING announcement leaves a GAP, passes the MARK behind it and gives the first frame of the
GAP behind that (R71, R72). -/
theorem Play.run_passes_mark {d : Directory} {p : Play} {ms ms' : Nat} {value : Byte}
    (playing : p.slot.state = .playing) (stage : p.eng.play.stage = .segment) (passed : p.eng.progress = .done)
    (fetched : p.eng.fetch.phase = .done) (gap : p.slot.segments[p.eng.play.seg]? = some (.gap ms))
    (mark : p.slot.segments[p.eng.play.seg + 1]? = some (.mark value))
    (gap' : p.slot.segments[p.eng.play.seg + 2]? = some (.gap ms')) :
    p.run d = (⟨⟨{ p.eng with
          play := { p.eng.play with seg := p.eng.play.seg + 2 }, progress := .begun, clipPos := 0
          framesRemaining := 48 * ms' - 1, dec := { p.eng.dec with previous := 0 } },
        { p.slot with playPos := ⟨p.eng.play.seg + 2, p.eng.play.pass⟩ }⟩, p.handle,
      p.events ++ [EventRecord.mark p.handle p.slot.tag value (p.eng.play.seg + 1) p.eng.play.pass], p.pass⟩, 0) := by
  have still : p.eng.fetch.phase ≠ .waiting := by rw [fetched]; decide
  have inside := (List.getElem?_eq_some_iff.mp mark).1
  have inside' := (List.getElem?_eq_some_iff.mp gap').1
  obtain ⟨c, left, walked⟩ := p.leave_next inside
  obtain rfl := walked.still still
  have noted : p.leave.passMark value = { p.leave with
      events := p.events ++ [EventRecord.mark p.handle p.slot.tag value (p.eng.play.seg + 1) p.eng.play.pass] } := by
    rw [left]; exact if_pos playing
  obtain ⟨c', left', walked'⟩ := (p.leave.passMark value).leave_next (by rw [noted, left]; exact inside')
  obtain rfl := walked'.still (by rw [noted, left]; exact still)
  have first := playLoop_gap_first (d := d) (fuel := 4 * p.slot.segments.length + 5)
    (p := (p.leave.passMark value).leave) (ms := ms')
    (by rw [left', noted, left]; exact stage) (by rw [left', noted, left]; exact gap') (by rw [left']; rfl)
  calc p.run d
      = playLoop d (4 * p.slot.segments.length + 7) p.leave := playLoop_gap_over stage gap (.inl passed)
    _ = playLoop d (4 * p.slot.segments.length + 6) (p.leave.passMark value).leave :=
        playLoop_mark (by rw [left]; exact stage) (by rw [left]; exact mark)
    _ = _ := first
    _ = _ := by
      rw [left', noted, left]
      have position (c : PlayCursor) (a : Slot) (on : a.state = .playing) : a.positionAt c = ⟨c.seg, c.pass⟩ := if_pos on
      rw [position, position]
      · rfl
      · exact playing
      · exact playing

/-! ### The entry of a segment -/

theorem Play.leaves_run {dir : Directory} {p : Play} {d : Decoder} (leaves : p.eng.leavesSegment dir p.slot.segments d) :
    p.run dir = playLoop dir (4 * p.slot.segments.length + 7) (p.withEng { p.eng with dec := d }).leave :=
  playLoop_leaves leaves

/-- The ways in which the play cursor comes to a segment in one frame, with the decoder it brings, where it then stands,
the fetch cursor's lap, and the play position: the next segment of the pass; the first one of the next pass with no
repeat gap; the first one behind a repeat gap (R68, R70, R76). -/
inductive Play.Enters (dir : Directory) (p : Play) : Decoder → PlayCursor → Lap → Position → Prop
  | next {d : Decoder} (leaves : p.eng.leavesSegment dir p.slot.segments d)
      (more : p.eng.play.seg + 1 < p.slot.segments.length) :
      p.Enters dir d { p.eng.play with seg := p.eng.play.seg + 1 } p.eng.fetch.lap
        (p.slot.positionAt { p.eng.play with seg := p.eng.play.seg + 1 })
  | again {d : Decoder} (leaves : p.eng.leavesSegment dir p.slot.segments d)
      (last : p.eng.play.seg + 1 = p.slot.segments.length) (noGap : p.slot.repeatGap = 0)
      (more : passesRemain p.slot.repeatCount p.eng.play.pass = true) :
      p.Enters dir d { pass := satSucc255 p.eng.play.pass, seg := 0, stage := .segment } .same
        (p.slot.positionAt { pass := satSucc255 p.eng.play.pass, seg := 0, stage := .segment })
  | afterGap (stage : p.eng.play.stage = .repeatGap) (passed : p.eng.gapPassed) :
      p.Enters dir p.eng.dec { p.eng.play with stage := .segment } p.eng.fetch.lap p.slot.playPos

/-- The play side once its cursor has come to a segment, which is still to begin: its fetch cursor stands at f, and l are
the announcement's segments. -/
def Play.entered (p : Play) (d : Decoder) (play : PlayCursor) (pos : Position) (clipPos : Nat) (f : FetchCursor)
    (l : List Segment) : Play :=
  { p with bound := ⟨{ p.eng with play := play, progress := .fresh, clipPos := clipPos, dec := d, fetch := f },
      { p.slot with playPos := pos, segments := l }⟩ }

section enters
variable {dir : Directory} {p : Play} {d : Decoder} {play : PlayCursor} {lap : Lap} {pos : Position}

/-- The play cursor comes to a segment, whichever way it takes (R64, R68, R70, R76). -/
theorem Play.Enters.run (enters : p.Enters dir d play lap pos) :
    play.stage = .segment ∧ ∃ (clipPos : Nat) (f : FetchCursor) (l : List Segment),
      p.run dir = playLoop dir (4 * p.slot.segments.length + 7) (p.entered d play pos clipPos f l)
        ∧ SameSegments p.slot.segments l
        ∧ (p.eng.fetch.phase ≠ .waiting → f = { p.eng.fetch with lap := lap } ∧ l = p.slot.segments) := by
  cases enters with
  | next leaves more =>
    obtain ⟨c, left, walked⟩ := (p.withEng { p.eng with dec := d }).leave_next more
    obtain ⟨f, l, rfl, same, kept⟩ := walked.form
    refine ⟨leaves.1, 0, f, l, ?_, same, kept⟩
    rw [Play.leaves_run leaves, left]
    rfl
  | again leaves last noGap more =>
    obtain ⟨c, left, walked⟩ := (p.withEng { p.eng with dec := d }).leave_again last.ge more noGap
    obtain ⟨f, l, rfl, same, kept⟩ := walked.form
    refine ⟨rfl, 0, f, l, ?_, same, kept⟩
    rw [Play.leaves_run leaves, left]
    rfl
  | afterGap stage passed =>
    exact ⟨rfl, p.eng.clipPos, p.eng.fetch, p.slot.segments, playLoop_repeatGap_over stage passed, rfl,
      fun _ => ⟨rfl, rfl⟩⟩

/-- The frame in which the play cursor comes to a GAP is the GAP's first (R71, R98). -/
theorem Play.Enters.gap (enters : p.Enters dir d play lap pos) {ms : Nat}
    (gap : p.slot.segments[play.seg]? = some (.gap ms)) :
    ∃ (clipPos : Nat) (f : FetchCursor) (l : List Segment),
      p.run dir = ({ p with bound :=
          ⟨{ p.eng with
              play := play, progress := .begun, clipPos := clipPos, framesRemaining := 48 * ms - 1
              dec := { d with previous := 0 }, fetch := f },
            { p.slot with playPos := pos, segments := l }⟩ }, 0)
        ∧ (p.eng.fetch.phase ≠ .waiting → f = { p.eng.fetch with lap := lap } ∧ l = p.slot.segments) := by
  obtain ⟨stage, clipPos, f, l, run, same, kept⟩ := enters.run
  have first := playLoop_gap_first (d := dir) (fuel := 4 * p.slot.segments.length + 6)
    (p := p.entered d play pos clipPos f l) stage (same.gap gap) rfl
  exact ⟨clipPos, f, l, run.trans first, kept⟩

/-- The frame in which the play cursor comes to a CLIP takes the clip's first sample (R70, R97). -/
theorem Play.Enters.clip (enters : p.Enters dir d play lap pos) {n k : Nat} {override : Option Nat} {entry : ClipEntry}
    {rest : List Byte} {sample : Int} {after : Decoder} (still : p.eng.fetch.phase ≠ .waiting) (phase : d.phase = 0)
    (clip : p.slot.segments[play.seg]? = some (.clip n override false)) (known : dir.entries[n]? = some entry)
    (covers : coversFrames entry.rate k)
    (takes : takesSample entry.coding { d with blockPos := 0, blockLen := 0, nibble := .low } entry.length p.eng.ring rest
      sample after) :
    p.run dir = (Play.resume { p with bound :=
        ⟨{ p.eng with
            play := play, progress := .begun, clipPos := p.eng.ring.length - rest.length, ring := rest
            dec := { after with current := sample, previous := d.previous, phase := 1 }
            fetch := { p.eng.fetch with lap := lap } },
          { p.slot with playPos := pos }⟩ },
      trimmedTo (override.getD entry.trim.toNat) (d.previous + (sample - d.previous).tdiv k)) := by
  obtain ⟨stage, clipPos, f, l, run, -, kept⟩ := enters.run
  obtain ⟨rfl, rfl⟩ := kept still
  have line : ({ after with current := sample, previous := d.previous, phase := 1 } : Decoder)
      = { after with current := sample, phase := 1 } := by
    have previous : after.previous = d.previous := (takesSample_leaves takes).1
    rw [← previous]
  rw [line]
  exact run.trans (playLoop_clip_first (p := p.entered d play pos clipPos _ _) stage clip known rfl phase covers takes)

end enters

/-- The play cursor leaves the last segment of the final pass: the play side has ENDED (R77). -/
theorem Play.run_ends {dir : Directory} {p : Play} {d : Decoder} (leaves : p.eng.leavesSegment dir p.slot.segments d)
    (last : p.eng.play.seg + 1 = p.slot.segments.length)
    (final : passesRemain p.slot.repeatCount p.eng.play.pass = false) :
    p.run dir = (p.withEng { p.eng with
      play := { p.eng.play with stage := .ended }, dec := d
      completionDue := if p.slot.state = .playing then true else p.eng.completionDue }, 0) := by
  have due : (if p.slot.state = .playing then true else p.eng.completionDue)
      = (p.eng.completionDue || p.slot.state == .playing) := by
    by_cases playing : p.slot.state = .playing <;> simp [playing]
  rw [due]
  have ended := Play.leave_ended (p := p.withEng { p.eng with dec := d }) last.ge final
  rw [Play.leaves_run leaves, ended]
  exact playLoop_ended rfl

/-- The play cursor leaves the last segment of a pass for the repeat gap, and gives the gap's first frame (R76). -/
theorem Play.run_begins_gap {dir : Directory} {p : Play} {d : Decoder}
    (leaves : p.eng.leavesSegment dir p.slot.segments d) (last : p.eng.play.seg + 1 = p.slot.segments.length)
    (more : passesRemain p.slot.repeatCount p.eng.play.pass = true) (gap : p.slot.repeatGap ≠ 0) :
    ∃ (f : FetchCursor) (l : List Segment),
      p.run dir = ({ p with bound :=
          ⟨{ p.eng with
              play := { pass := satSucc255 p.eng.play.pass, seg := 0, stage := .repeatGap }, progress := .begun
              clipPos := 0, framesRemaining := 480 * p.slot.repeatGap - 1, dec := { d with previous := 0 }, fetch := f },
            { p.slot with
              playPos := p.slot.positionAt { pass := satSucc255 p.eng.play.pass, seg := 0, stage := .repeatGap }
              segments := l }⟩ }, 0)
        ∧ (p.eng.fetch.phase ≠ .waiting → f = { p.eng.fetch with lap := .same } ∧ l = p.slot.segments) := by
  obtain ⟨c, left, walked⟩ := (p.withEng { p.eng with dec := d }).leave_gap last.ge more gap
  obtain ⟨f, l, rfl, -, kept⟩ := walked.form
  refine ⟨f, l, ?_, kept⟩
  rw [Play.leaves_run leaves, left]
  refine playLoop_repeatGap_first rfl rfl ?_
  exact Nat.mul_ne_zero (by decide) gap

/-! ### The obligation -/

/-- Passes remain (R64), as a statement. -/
theorem passesRemain_iff (repeatCount pass : Nat) :
    passesRemain repeatCount pass = true ↔ repeatCount = 0 ∨ pass < repeatCount := by
  simp [passesRemain]

/-- The pass counter stays at 255 (R76). -/
theorem satSucc255_eq (n : Nat) : satSucc255 n = min 255 (n + 1) := by
  unfold satSucc255
  split <;> omega

/-- Zero is handed on as zero (R80). -/
theorem Engine.handsOn_zero (g : Engine) : g.handsOn 0 = 0 := by
  simp [Engine.handsOn]

/-- An engine that was not STALLED keeps its state when its clip goes on (R78). -/
theorem Play.resume_eq {p : Play} (moving : p.eng.state ≠ .stalled) :
    p.resume = p.withEng { p.eng with underrun := false } := by
  rw [Play.resume, if_neg moving]

/-- The frame that passes a MARK between two GAPs, while PLAYING (R72). -/
theorem State.takeFrame_passes_mark {s : State} {e : EngineId} {h : Handle} {ms ms' : Nat} {value : Byte}
    (law : s.BindingLaw) (bound : s.engines[e].binding = some h)
    (only : ∀ e' : EngineId, e' ≠ e → s.engines[e'].binding = none) (playing : s.slots[handleSlot h].state = .playing)
    (running : s.engines[e].state = .running) (stage : s.engines[e].play.stage = .segment)
    (passed : s.engines[e].progress = .done) (fetched : s.engines[e].fetch.phase = .done)
    (gap : s.slots[handleSlot h].segments[s.engines[e].play.seg]? = some (.gap ms))
    (mark : s.slots[handleSlot h].segments[s.engines[e].play.seg + 1]? = some (.mark value))
    (gap' : s.slots[handleSlot h].segments[s.engines[e].play.seg + 2]? = some (.gap ms')) :
    s.takeFrame.events = s.events.offer
        (EventRecord.mark h s.slots[handleSlot h].tag value (s.engines[e].play.seg + 1) s.engines[e].play.pass)
      ∧ s.takeFrame.slots[handleSlot h]
        = { s.slots[handleSlot h] with playPos := ⟨s.engines[e].play.seg + 2, s.engines[e].play.pass⟩ }
      ∧ s.takeFrame.engines[e].play = { s.engines[e].play with seg := s.engines[e].play.seg + 2 }
      ∧ s.takeFrame.engines[e].framesRemaining = 48 * ms' - 1 ∧ s.takeFrame.passPending = s.passPending := by
  have run := Play.run_passes_mark (d := s.dir) (p := s.playAt e h) playing stage passed fetched gap mark gap'
  have plays : s.engines[e].Plays := .inl running
  obtain ⟨events, pass⟩ := State.takeFrame_alone bound plays run only
  obtain ⟨r, eng⟩ := State.takeFrame_engine_frame bound plays run
  rw [eng, State.takeFrame_slot_plays law bound plays run, events, pass, Bool.or_comm]
  exact ⟨rfl, rfl, rfl, rfl, rfl⟩

/-- Settles O33: a MARK between two GAPs first; then each way out of a segment, and each kind of segment that it leads
to. -/
theorem frameCrossesBoundaries : Obligations.FrameCrossesBoundaries := by
  refine ⟨?_, ?_⟩
  · intro s e h i k ms ms' value up law bound slot only playing running stage seg passed fetched gap mark gap'
    subst slot seg
    exact ⟨_, exec_frame up, s.takeFrame_passes_mark law bound only playing running stage passed fetched gap mark gap'⟩
  · intro s e g moved h i a d pass up law eng bound slot record runs stepped passes
    subst eng slot record stepped passes
    have plays : s.engines[e].Plays := runs.elim .inl fun fading => .inr (.inr fading)
    refine ⟨_, exec_frame up, fun leaves last => ⟨fun some_ final => ?_, fun more gap => ?_⟩, fun play lap pos way => ?_⟩
    · have run := Play.run_ends (p := s.playAt e h) leaves last
        (Bool.eq_false_iff.mpr fun more => ((passesRemain_iff _ _).mp more).elim some_ final.not_gt)
      obtain ⟨r, eng⟩ := State.takeFrame_engine_frame bound plays run
      refine ⟨?_, State.takeFrame_slot_plays law bound plays run, by rw [eng]; rfl, fun only => ?_⟩
      · rw [State.engineFrame_sample bound plays run, Engine.handsOn_zero]
      · obtain ⟨events, pass⟩ := State.takeFrame_alone bound plays run only
        rw [events, pass, Bool.or_comm]
        exact ⟨rfl, rfl⟩
    · obtain ⟨f, l, run, kept⟩ := Play.run_begins_gap (p := s.playAt e h) leaves last ((passesRemain_iff _ _).mpr more) gap
      rw [satSucc255_eq] at run
      obtain ⟨r, eng⟩ := State.takeFrame_engine_frame bound plays run
      rw [State.engineFrame_sample bound plays run, Engine.handsOn_zero, eng,
        State.takeFrame_slot_plays law bound plays run]
      refine ⟨rfl, rfl, rfl, fun still => ?_⟩
      obtain ⟨rfl, rfl⟩ := kept still
      exact ⟨rfl, rfl⟩
    · have enters : (s.playAt e h).Enters s.dir d play lap pos := by
        obtain ⟨leaves, more, rfl, rfl, rfl⟩ | ⟨leaves, last, noGap, more, rfl, rfl, rfl⟩ | ⟨stage, passed, rfl, rfl, rfl, rfl⟩
          := way
        · exact .next leaves more
        · rw [← satSucc255_eq]
          exact .again leaves last noGap ((passesRemain_iff _ _).mpr more)
        · exact .afterGap stage passed
      refine ⟨fun ms gap => ?_, fun n k override entry sample rest after still phase clip known covers takes => ?_⟩
      · obtain ⟨clipPos, f, l, run, kept⟩ := enters.gap gap
        obtain ⟨r, eng⟩ := State.takeFrame_engine_frame bound plays run
        rw [State.engineFrame_sample bound plays run, Engine.handsOn_zero, eng,
          State.takeFrame_slot_plays law bound plays run]
        refine ⟨rfl, rfl, rfl, fun still => ?_⟩
        obtain ⟨rfl, rfl⟩ := kept still
        exact ⟨rfl, rfl⟩
      · have run := enters.clip still phase clip known covers takes
        have moving : s.engines[e].state ≠ .stalled := by
          obtain running | ⟨fading, -⟩ := runs
          · rw [running]; decide
          · rw [fading]; decide
        rw [Play.resume_eq (by exact moving)] at run
        obtain ⟨r, eng⟩ := State.takeFrame_engine_frame bound plays run
        rw [State.engineFrame_sample bound plays run, eng, State.takeFrame_slot_plays law bound plays run]
        exact ⟨rfl, rfl, rfl⟩

end Sys2Proof.Machine

/-! ## Chapter 3 proofs: faulted segments -/

namespace Sys2Proof.Machine

/-! ### The fetch cursor past a clip -/

/-- Lists that agree apart from fault marks have the same CLIPs, fault marks apart. -/
theorem SameSegments.clip {l m : List Segment} (same : SameSegments l m) {k n : Nat} {trim : Option Nat} {fault : Bool}
    (clip : l[k]? = some (.clip n trim fault)) : ∃ fault', m[k]? = some (.clip n trim fault') := by
  have unmarked := congrArg (·[k]?) same
  simp only [List.getElem?_map, clip] at unmarked
  cases found : m[k]? with
  | none => simp [found] at unmarked
  | some segment => cases segment <;> simp_all [Segment.withFault]

/-- A fetch cursor that may enter the GAP it stands before walks through it (R62). -/
theorem walkFetch_gap (repeatCount playSeg fuel : Nat) {l : List Segment} {c : FetchCursor} {ms : Nat}
    (free : c.lap = .same) (gap : l[c.seg]? = some (.gap ms)) :
    walkFetch repeatCount playSeg (fuel + 1) l c
      = walkFetch repeatCount playSeg fuel (setFault l c.seg false) { c with seg := c.seg + 1 } := by
  obtain ⟨inside, -⟩ := List.getElem?_eq_some_iff.mp gap
  rw [walkFetch, if_pos inside, if_pos (.inl free)]
  simp only [gap]

/-- A walk comes to the CLIP before it, or to the one behind a GAP (R62). -/
theorem walkFetch_reaches (repeatCount playSeg fuel : Nat) {l : List Segment} {c : FetchCursor} {q n : Nat}
    {trim : Option Nat} {fault : Bool} (free : c.lap = .same)
    (at_ : q = c.seg ∨ (q = c.seg + 1 ∧ ∃ ms, l[c.seg]? = some (.gap ms))) (clip : l[q]? = some (.clip n trim fault)) :
    (walkFetch repeatCount playSeg (fuel + 2) l c).2 = { c with seg := q, offset := 0, phase := .header } := by
  obtain rfl | ⟨rfl, ms, gap⟩ := at_
  · rw [walkFetch_clip _ _ _ free clip]
  · obtain ⟨fault', clip'⟩ := (sameSegments_setFault l c.seg false).clip clip
    rw [walkFetch_gap _ _ _ free gap]
    exact congrArg Prod.snd (walkFetch_clip repeatCount playSeg fuel (c := { c with seg := c.seg + 1 }) free clip')

/-! ### What a faulted segment leaves of the fetch side -/

/-- The request that stands once the one not granted has been withdrawn; the data of the other is to be dropped where
`drop` says so (R67, R74). -/
def keptRequest (drop : Bool) : Option BurstRequest → Option BurstRequest
  | some r => if r.granted then some { r with dropped := r.dropped || drop } else none
  | none => none

/-- What a fault under the play cursor of engine g leaves of the fetch side: the fetch cursor f, the request, and the
segments l of the announcement a. Where the fetch cursor was in the clip's data (`played`), its place in the clip and
the clip's request are lost (R74); otherwise all of it stands, but for a WAITING cursor that walks on. -/
structure FaultLeaves (g : Engine) (a : Slot) (played : Bool) (f : FetchCursor) (request : Option BurstRequest)
    (l : List Segment) : Prop where
  same : SameSegments a.segments l
  elsewhere : played = false → request = g.request ∧ (g.fetch.phase ≠ .waiting → f = g.fetch ∧ l = a.segments)
  inside : played = true → request = keptRequest true g.request ∧ f.phase ≠ .data
    ∧ ∀ (q m : Nat) (trim : Option Nat) (mark : Bool),
        (q = g.play.seg + 1 ∨ (q = g.play.seg + 2 ∧ ∃ ms, a.segments[g.play.seg + 1]? = some (.gap ms))) →
        a.segments[q]? = some (.clip m trim mark) → f = { g.fetch with seg := q, offset := 0, phase := .header }

section FaultLeaves
variable {g : Engine} {a : Slot} {played : Bool} {f : FetchCursor} {request : Option BurstRequest} {l : List Segment}

/-- A fault elsewhere leaves the fetch side as it is. -/
theorem FaultLeaves.elsewhere_refl (g : Engine) (a : Slot) : FaultLeaves g a false g.fetch g.request a.segments :=
  ⟨rfl, fun _ => ⟨rfl, fun _ => ⟨rfl, rfl⟩⟩, nofun⟩

/-- A WAITING fetch cursor that tries again afterwards changes nothing of what is said. -/
theorem FaultLeaves.walk (leaves : FaultLeaves g a played f request l) {b c : Bound} (walked : b.Walked c)
    (fetch : b.eng.fetch = f) (segments : b.slot.segments = l) :
    FaultLeaves g a played c.eng.fetch request c.slot.segments := by
  subst fetch segments
  refine ⟨walked.same.trans leaves.same, fun out => ?_, fun in_ => ?_⟩
  · obtain ⟨req, kept⟩ := leaves.elsewhere out
    refine ⟨req, fun still => ?_⟩
    obtain ⟨fetch, segments⟩ := kept still
    rw [walked.kept (by rw [fetch]; exact still)]
    exact ⟨fetch, segments⟩
  · obtain ⟨req, phase, reaches⟩ := leaves.inside in_
    refine ⟨req, mt walked.data phase, fun q m trim mark at_ clip => ?_⟩
    have there := reaches q m trim mark at_ clip
    rw [walked.kept (by rw [there]; nofun), there]

/-- A granted request stands, its data to be dropped where it is the clip's. -/
theorem FaultLeaves.granted (leaves : FaultLeaves g a played f request l) {r : BurstRequest} (stands : g.request = some r)
    (granted : r.granted = true) : request = keptRequest played g.request := by
  cases played with
  | false => rw [(leaves.elsewhere rfl).1, stands, keptRequest, if_pos granted, Bool.or_false]
  | true => exact (leaves.inside rfl).1

/-- What stands of the request once one not granted has been withdrawn. -/
theorem FaultLeaves.withdrawn (leaves : FaultLeaves g a played f request l) :
    request.filter (·.granted) = keptRequest played g.request := by
  have kept (drop : Bool) (x : Option BurstRequest) :
      (keptRequest drop x).filter (·.granted) = keptRequest drop x := by
    cases x with
    | none => rfl
    | some r => cases granted : r.granted <;> simp [keptRequest, granted]
  cases played with
  | true => rw [(leaves.inside rfl).1, kept]
  | false =>
    rw [(leaves.elsewhere rfl).1]
    cases g.request with
    | none => rfl
    | some r =>
      obtain ⟨_, _, _, _, granted, _⟩ := r
      cases granted <;> simp [keptRequest]

end FaultLeaves

/-! ### The play side comes to a faulted segment -/

/-- The play side as a fault under its cursor is about to be counted: the ring, the fetch cursor, the request and the
segments are what the fault leaves of them, and the engine is not held up by an underrun. -/
def Play.atFault (p : Play) (progress : Progress) (clipPos : Nat) (dec : Decoder) (ring : List Byte) (f : FetchCursor)
    (request : Option BurstRequest) (l : List Segment) : Play :=
  { p with bound :=
    ⟨{ p.eng with
        progress := progress, clipPos := clipPos, dec := dec, ring := ring, fetch := f, request := request
        state := if p.eng.state = .stalled then .running else p.eng.state, underrun := false },
      { p.slot with segments := l }⟩ }

/-- A fault is counted, and play goes on behind the segment unless it was halted (R75). -/
def Play.passFault (d : Directory) (fuel : Nat) (p : Play) (kind : FaultKind) : Play × Int :=
  if (p.countFault kind).eng.play.stage = .halted then (p.countFault kind, 0)
  else playLoop d fuel (p.countFault kind).leave

/-- A CLIP whose fault mark is set is passed (R73). -/
theorem playLoop_marked {d : Directory} {fuel n : Nat} {p : Play} {trim : Option Nat}
    (stage : p.eng.play.stage = .segment) (clip : p.slot.segments[p.eng.play.seg]? = some (.clip n trim true)) :
    ∃ progress clipPos dec,
      playLoop d (fuel + 1) p
        = (p.atFault progress clipPos dec p.eng.ring p.eng.fetch p.eng.request p.slot.segments).passFault d fuel
            .headerMismatch := by
  have entered : ∃ progress clipPos dec, p.enterClip.resume
      = p.atFault progress clipPos dec p.eng.ring p.eng.fetch p.eng.request p.slot.segments := by
    unfold Play.enterClip
    split
    · exact ⟨_, _, _, rfl⟩
    · exact ⟨_, _, _, rfl⟩
  obtain ⟨progress, clipPos, dec, entered⟩ := entered
  refine ⟨progress, clipPos, dec, ?_⟩
  simp only [playLoop, stage, clip, if_true, entered, Play.passFault]

/-- A block header that fails a check (R90). -/
theorem Play.clipFrame_badBlock {p : Play} {entry : ClipEntry} (trim : Option Nat) {dir : Directory} {l : List Segment}
    (bad : p.eng.findsBadBlock dir l entry) :
    ∃ dec, p.clipFrame entry trim = .faulted (p.withEng { p.eng with dec := dec }).resume := by
  obtain ⟨-, coding, -, phase, inside, start, lo, hi, index, reserved, b, more, ring, check⟩ := bad
  have ended : p.eng.dec.endRun.blockPos = p.eng.dec.endRun.blockLen := by
    unfold Decoder.endRun
    split <;> exact start
  have between : ¬ (p.eng.dec.phase ≠ 0 ∧ p.eng.dec.phase < framesPerSample entry.rate) := by
    rintro ⟨running, before⟩
    obtain zero | covers := phase
    · exact running zero
    · rw [(framesPerSample_eq covers).1] at before
      exact Nat.lt_irrefl _ before
  have take : takeSample (codingOf entry.coding) p.eng.dec.endRun p.eng.ring (entry.length - p.eng.clipPos)
      = .formatFault { p.eng.dec.endRun with blockLen := sd4BlockLength (entry.length - p.eng.clipPos) } := by
    have enough : ¬ p.eng.ring.length < 5 := by simp [ring]
    have fails : 79 < (byteAt p.eng.ring 2).toNat ∨ byteAt p.eng.ring 3 ≠ 0#8 := by rw [ring]; exact check
    rw [coding]
    simp only [codingOf, takeSample, takeSd4, ended, enough, fails, if_true, if_false]
    rfl
  refine ⟨{ p.eng.dec.endRun with blockLen := sd4BlockLength (entry.length - p.eng.clipPos) }, ?_⟩
  simp only [Play.clipFrame, between, if_false, Nat.ne_of_lt inside, and_false, take]

/-- A FORMAT fault takes the rest of the clip out of the ring, and the fetch cursor out of the clip (R74). -/
theorem Play.formatFault_eq (p : Play) (length : Nat) :
    ∃ f request l, p.formatFault length
        = ({ p with bound :=
            ⟨{ p.eng with ring := p.eng.ring.drop (length - p.eng.clipPos), fetch := f, request := request },
              { p.slot with segments := l }⟩ } : Play).countFault .format
      ∧ FaultLeaves p.eng p.slot (decide p.eng.fetchesPlayed) f request l := by
  have dropped : p.eng.ring.drop (min p.eng.ring.length (length - p.eng.clipPos))
      = p.eng.ring.drop (length - p.eng.clipPos) := by
    rcases Nat.le_total (length - p.eng.clipPos) p.eng.ring.length with short | long
    · rw [Nat.min_eq_right short]
    · rw [Nat.min_eq_left long, List.drop_length, List.drop_of_length_le long]
  have inClip : (p.eng.fetch.lap == .same && p.eng.fetch.seg == p.eng.play.seg && p.eng.fetch.phase == .data)
      = decide p.eng.fetchesPlayed := by
    refine Bool.eq_iff_iff.mpr ?_
    simp [and_assoc]
  simp only [Play.formatFault, dropped, inClip]
  by_cases played : p.eng.fetchesPlayed
  · have kept : (match p.eng.request with
        | some r => if r.granted then some { r with dropped := true } else none
        | none => none) = keptRequest true p.eng.request := by
      cases p.eng.request with
      | none => rfl
      | some r => simp only [keptRequest, Bool.or_true]
    rw [decide_eq_true played]
    simp only [if_true]
    refine ⟨_, _, _, rfl, sameSegments_walkFetch _ _ _ _ _, (nomatch ·), fun _ => ⟨kept, walkFetch_phase _ _ _ _ _, ?_⟩⟩
    intro q m trim mark at_ clip
    obtain ⟨lap, seg, -⟩ := played
    rw [← seg] at at_
    exact walkFetch_reaches _ _ _ (c := { p.eng.fetch with seg := p.eng.fetch.seg + 1 }) lap at_ clip
  · rw [decide_eq_false played]
    simp only [Bool.false_eq_true, if_false]
    exact ⟨_, _, _, rfl, .elsewhere_refl _ _⟩

/-- An SD4 clip at a block header that fails its checks is passed (R74, R90). -/
theorem playLoop_badBlock {d : Directory} {fuel : Nat} {p : Play} {entry : ClipEntry}
    (stage : p.eng.play.stage = .segment) (bad : p.eng.findsBadBlock d p.slot.segments entry) :
    ∃ progress clipPos dec f request l,
      playLoop d (fuel + 1) p
          = (p.atFault progress clipPos dec (p.eng.ring.drop (entry.length - p.eng.clipPos)) f request l).passFault d fuel
            .format
        ∧ FaultLeaves p.eng p.slot (decide p.eng.fetchesPlayed) f request l := by
  obtain ⟨⟨n, trim, clip, known⟩, -, begun, -⟩ := id bad
  have found : d.entry n = entry := by simp [Directory.entry, known]
  have inside : p.enterClip = p := Play.enterClip_begun (by rw [begun]; decide)
  obtain ⟨dec, faulted⟩ := Play.clipFrame_badBlock trim bad
  obtain ⟨f, request, l, fault, leaves⟩ := (p.withEng { p.eng with dec := dec }).resume.formatFault_eq entry.length
  refine ⟨p.eng.progress, p.eng.clipPos, dec, f, request, l, ?_, leaves.same, leaves.elsewhere, leaves.inside⟩
  simp only [playLoop, stage, clip, Bool.false_eq_true, if_false, found, inside, faulted, fault]
  rfl

/-- The play side comes to a faulted segment, of either kind, and passes it (R73, R74). -/
theorem Play.run_faults {dir : Directory} {p : Play} {kind : Byte} {ring : List Byte}
    (stage : p.eng.play.stage = .segment)
    (fault : (kind = 1#8 ∧ ring = p.eng.ring
        ∧ ∃ n override, p.slot.segments[p.eng.play.seg]? = some (.clip n override true))
      ∨ (kind = 2#8 ∧ ∃ entry : ClipEntry, p.eng.findsBadBlock dir p.slot.segments entry
          ∧ ring = p.eng.ring.drop (entry.length - p.eng.clipPos))) :
    ∃ faultKind progress clipPos dec f request l, faultKindCode faultKind = kind
      ∧ p.run dir = (p.atFault progress clipPos dec ring f request l).passFault dir (4 * p.slot.segments.length + 7)
          faultKind
      ∧ FaultLeaves p.eng p.slot (decide (kind = 2#8 ∧ p.eng.fetchesPlayed)) f request l := by
  obtain ⟨rfl, rfl, n, override, clip⟩ | ⟨rfl, entry, bad, rfl⟩ := fault
  · obtain ⟨progress, clipPos, dec, run⟩ := playLoop_marked (d := dir) (fuel := 4 * p.slot.segments.length + 7) stage clip
    have other : decide (1#8 = 2#8 ∧ p.eng.fetchesPlayed) = false := decide_eq_false fun h => nomatch h.1
    rw [other]
    exact ⟨.headerMismatch, progress, clipPos, dec, _, _, _, rfl, run, .elsewhere_refl _ _⟩
  · obtain ⟨progress, clipPos, dec, f, request, l, run, leaves⟩ :=
      playLoop_badBlock (fuel := 4 * p.slot.segments.length + 7) stage bad
    have same : decide (2#8 = 2#8 ∧ p.eng.fetchesPlayed) = decide p.eng.fetchesPlayed := by simp
    rw [same]
    exact ⟨.format, progress, clipPos, dec, f, request, l, rfl, run, leaves⟩

/-! ### The fault is counted -/

/-- A request that is not granted is withdrawn (R67). -/
theorem Engine.withdrawUngranted_eq (e : Engine) :
    e.withdrawUngranted = { e with request := e.request.filter (·.granted) } := by
  have whole {r : Option BurstRequest} (request : e.request = r) : e = { e with request := r } := by rw [← request]
  unfold Engine.withdrawUngranted
  split
  · next r request =>
    split
    · next granted => rw [request, Option.filter_some_pos granted]; exact whole request
    · next waits => rw [request, Option.filter_some_neg (Bool.eq_false_iff.mpr waits)]
  · next request => rw [request]; exact whole request

section countFault
variable {p : Play} (kind : FaultKind)

/-- The first fault is counted and its event queued; play goes on (R75). -/
theorem Play.countFault_first (none_ : p.slot.faultCount = 0) :
    p.countFault kind = { p with
      bound := ⟨p.eng, { p.slot with faultCount := 1 }⟩
      events := p.events ++ [EventRecord.segmentFault p.handle p.slot.tag p.eng.play.seg kind p.eng.play.pass] } := by
  simp only [Play.countFault, none_]
  rfl

/-- The second fault of a PLAYING announcement aborts it (R6, R75, R79). -/
theorem Play.countFault_playing (one : p.slot.faultCount = 1) (playing : p.slot.state = .playing) :
    p.countFault kind =
      { bound :=
          ⟨{ p.eng with
              play := { p.eng.play with stage := .halted }, request := p.eng.request.filter (·.granted)
              state := .fading, fadePos := 0, fadePriming := false },
            { p.slot with faultCount := 2, state := .stopping, stop := some ⟨.aborted, false, none⟩ }⟩
        handle := p.handle
        events := p.events ++ [EventRecord.segmentFault p.handle p.slot.tag p.eng.play.seg kind p.eng.play.pass]
        pass := true } := by
  simp only [Play.countFault, one, playing, Engine.withdrawUngranted_eq]
  rfl

/-- The stopping record after a second fault: a preemption becomes an abort (R6). -/
def Stopping.faulted (why : Stopping) : Stopping :=
  if why.reason = .preempted then ⟨.aborted, false, none⟩ else why

/-- The second fault of a STOPPING announcement halts play, and turns a preemption into an abort (R6, R75). -/
theorem Play.countFault_stopping (one : p.slot.faultCount = 1) (stopping : p.slot.state = .stopping) :
    p.countFault kind = { p with
      bound :=
        ⟨{ p.eng with
            play := { p.eng.play with stage := .halted }, request := p.eng.request.filter (·.granted) },
          { p.slot with faultCount := 2, stop := p.slot.stop.map Stopping.faulted }⟩
      events := p.events ++ [EventRecord.segmentFault p.handle p.slot.tag p.eng.play.seg kind p.eng.play.pass] } := by
  cases stop : p.slot.stop with
  | none => simp only [Play.countFault, one, stopping, stop, Engine.withdrawUngranted_eq]; rfl
  | some why =>
    obtain ⟨reason, pending, by_⟩ := why
    cases reason with
    | preempted => simp only [Play.countFault, one, stopping, stop, Engine.withdrawUngranted_eq]; rfl
    | cancelled => simp only [Play.countFault, one, stopping, stop, Engine.withdrawUngranted_eq]; rfl
    | aborted => simp only [Play.countFault, one, stopping, stop, Engine.withdrawUngranted_eq]; rfl

end countFault

/-! ### The frame that meets a fault -/

/-- The first fault, counted on a segment before a GAP: play goes on with the GAP's first frame (R75, R71). -/
theorem Play.passFault_first {dir : Directory} {fuel : Nat} {p : Play} {progress : Progress} {clipPos : Nat}
    {dec : Decoder} {ring : List Byte} {f : FetchCursor} {request : Option BurstRequest} {l : List Segment}
    {played : Bool} {ms : Nat} (kind : FaultKind) (leaves : FaultLeaves p.eng p.slot played f request l)
    (stage : p.eng.play.stage = .segment) (none_ : p.slot.faultCount = 0)
    (gap : p.slot.segments[p.eng.play.seg + 1]? = some (.gap ms)) :
    ∃ f' l', (p.atFault progress clipPos dec ring f request l).passFault dir (fuel + 1) kind
        = ({ p with
            bound :=
              ⟨{ p.eng with
                  play := { p.eng.play with seg := p.eng.play.seg + 1 }, progress := .begun, clipPos := 0
                  framesRemaining := 48 * ms - 1, dec := { dec with previous := 0 }, ring := ring, fetch := f'
                  request := request, state := if p.eng.state = .stalled then .running else p.eng.state
                  underrun := false },
                { p.slot with
                  faultCount := 1, segments := l'
                  playPos := p.slot.positionAt { p.eng.play with seg := p.eng.play.seg + 1 } }⟩
            events := p.events ++ [EventRecord.segmentFault p.handle p.slot.tag p.eng.play.seg kind p.eng.play.pass] }, 0)
      ∧ FaultLeaves p.eng p.slot played f' request l' := by
  have counted := Play.countFault_first (p := p.atFault progress clipPos dec ring f request l) kind none_
  have more : p.eng.play.seg + 1 < l.length := by
    rw [leaves.same.length_eq]; exact (List.getElem?_eq_some_iff.mp gap).1
  obtain ⟨c, left, walked⟩ := Play.leave_next
    (p := (p.atFault progress clipPos dec ring f request l).countFault kind) (by rw [counted]; exact more)
  rw [counted] at walked
  have leaves' := leaves.walk walked rfl rfl
  obtain ⟨f', l', rfl, -, -⟩ := walked.form
  refine ⟨f', l', ?_, leaves'⟩
  have going : ((p.atFault progress clipPos dec ring f request l).countFault kind).eng.play.stage ≠ .halted := by
    rw [counted]
    exact fun halted => nomatch stage.symm.trans halted
  rw [Play.passFault, if_neg going, left, counted]
  have same : SameSegments p.slot.segments l' := leaves'.same
  exact playLoop_gap_first (by exact stage) (by exact same.gap gap) (by rfl)

/-- A granted request outlives the fade's step and the evaluation of R61. -/
theorem Engine.request_stands {d : Directory} (was : Engine) {x : Engine} {a : Slot} {r : BurstRequest}
    (request : x.request = some r) (granted : r.granted = true) :
    ((⟨was.fadeStep x, a⟩ : Bound).considerRequest d).eng.request = some r := by
  have stands : (was.fadeStep x).request = some r := by
    simp only [Engine.fadeStep, Engine.advanceFade, Engine.withdrawUngranted_eq]
    split
    · split
      · simp only [request, Option.filter_some_pos granted]
      · exact request
    · exact request
  rw [Bound.considerRequest_standing (by rw [stands]; rfl), stands]

/-- Without a request and out of a clip's data, the engine asks for a header if for anything (R61, R62). -/
theorem Engine.request_asks_header {d : Directory} (was : Engine) {x : Engine} {a : Slot} (none_ : x.request = none)
    (phase : x.fetch.phase ≠ .data) {r : BurstRequest}
    (asked : r ∈ ((⟨was.fadeStep x, a⟩ : Bound).considerRequest d).eng.request) : r.kind = .header := by
  have still : (was.fadeStep x).request = none := by
    simp only [Engine.fadeStep, Engine.advanceFade, Engine.withdrawUngranted_eq]
    split
    · split
      · simp only [none_, Option.filter_none]
      · exact none_
    · exact none_
  have fetch : (was.fadeStep x).fetch.phase ≠ .data := by rw [Engine.fadeStep_frame]; exact phase
  unfold Bound.considerRequest at asked
  split at asked
  · obtain rfl := Option.some.inj asked
    unfold Bound.nextRequest
    split
    · next data => exact absurd data fetch
    · rfl
  · rw [Option.mem_def, still] at asked
    cases asked

/-- A halted engine whose ungranted request has been withdrawn keeps its request at the frame (R61, R80). -/
theorem Engine.request_halted {d : Directory} (was : Engine) {x : Engine} {a : Slot} {request : Option BurstRequest}
    (halted : x.play.stage = .halted) (withdrawn : x.request = request.filter (·.granted)) :
    ((⟨was.fadeStep x, a⟩ : Bound).considerRequest d).eng
      = { x with fadePos := if was.state = .fading then x.fadePos + 1 else x.fadePos } := by
  have still : (was.fadeStep x).request = x.request := by
    simp only [Engine.fadeStep, Engine.advanceFade, Engine.withdrawUngranted_eq]
    split
    · split
      · simp only [withdrawn, Option.filter_filter, Bool.and_self]
      · rfl
    · rfl
  rw [Bound.considerRequest_halted (by rw [Engine.fadeStep_frame]; exact halted), Engine.fadeStep_frame, still]


/-- The announcement of a bound engine is PLAYING, or STOPPING with the engine in its fade (R56). -/
theorem State.BindingLaw.fading {s : State} (law : s.BindingLaw) {e : EngineId} {h : Handle}
    (bound : s.engines[e].binding = some h) :
    (s.slots[handleSlot h].state = .playing ∧ s.engines[e].state ≠ .fading)
      ∨ (s.slots[handleSlot h].state = .stopping ∧ s.engines[e].state = .fading) := by
  obtain ⟨-, mine, fading⟩ := (law.1 e).2 h bound
  have on := (law.2 (handleSlot h)).1.mp (by rw [mine]; rfl)
  obtain playing | stopping := on
  · exact .inl ⟨playing, fun f => nomatch playing.symm.trans (fading.mp f)⟩
  · exact .inr ⟨stopping, fading.mpr stopping⟩

/-- An engine that plays is RUNNING, or still FADING, once its clip goes on (R78, R80). -/
theorem Engine.Plays.resumed {g : Engine} (plays : g.Plays) :
    (if g.state = .stalled then EngineState.running else g.state) = if g.state = .fading then .fading else .running := by
  obtain state | state | ⟨state, -⟩ := plays <;> rw [state] <;> rfl

/-- The second fault halts the play cursor and aborts the announcement; its zones and its engine's fetch side stay
(R6, R75, R79). -/
theorem Play.passFault_second {dir : Directory} {fuel : Nat} {p : Play} {progress : Progress} {clipPos : Nat}
    {dec : Decoder} {ring : List Byte} {f : FetchCursor} {request : Option BurstRequest} {l : List Segment}
    (kind : FaultKind) (one : p.slot.faultCount = 1)
    (on : p.slot.state = .playing
      ∨ (p.slot.state = .stopping ∧ p.eng.state = .fading ∧ p.eng.fadePriming = false)) :
    ∃ (a : Slot) (pass : Bool), (p.atFault progress clipPos dec ring f request l).passFault dir fuel kind
        = ({ bound :=
              ⟨{ p.eng with
                  play := { p.eng.play with stage := .halted }, progress := progress, clipPos := clipPos, dec := dec
                  ring := ring, fetch := f, request := request.filter (·.granted), underrun := false
                  state := .fading, fadePos := if p.slot.state = .playing then 0 else p.eng.fadePos
                  fadePriming := false }, a⟩
             handle := p.handle
             events := p.events ++ [EventRecord.segmentFault p.handle p.slot.tag p.eng.play.seg kind p.eng.play.pass]
             pass := pass }, 0)
      ∧ a.segments = l
      ∧ (p.slot.state = .playing → pass = true ∧ a = { p.slot with
          state := .stopping, faultCount := 2, stop := some ⟨.aborted, false, none⟩, segments := l })
      ∧ (p.slot.state = .stopping → pass = p.pass ∧ a = { p.slot with
          faultCount := 2, segments := l, stop := p.slot.stop.map Stopping.faulted }) := by
  have halts {q : Play} (counted : (p.atFault progress clipPos dec ring f request l).countFault kind = q)
      (halted : q.eng.play.stage = .halted) :
      (p.atFault progress clipPos dec ring f request l).passFault dir fuel kind = (q, 0) := by
    rw [Play.passFault, counted, if_pos halted]
  obtain playing | ⟨stopping, fading, primed⟩ := on
  · have counted := Play.countFault_playing (p := p.atFault progress clipPos dec ring f request l) kind one playing
    refine ⟨_, true, (halts counted rfl).trans ?_, rfl, fun _ => ⟨rfl, rfl⟩, fun stopping => ?_⟩
    · rw [if_pos playing]; rfl
    · cases playing.symm.trans stopping
  · have counted := Play.countFault_stopping (p := p.atFault progress clipPos dec ring f request l) kind one stopping
    refine ⟨_, p.pass, (halts counted rfl).trans ?_, rfl, fun playing => ?_, fun _ => ⟨rfl, rfl⟩⟩
    · have moving : (p.atFault progress clipPos dec ring f request l).eng.state = .fading :=
        (if_neg (by rw [fading]; decide)).trans fading
      have primed' : (p.atFault progress clipPos dec ring f request l).eng.fadePriming = false := primed
      rw [if_neg (by rw [stopping]; decide)]
      simp only [moving, primed']
      rfl
    · cases stopping.symm.trans playing

/-- What a frame that meets a fault leaves of the fetch side of engine x and of its announcement's segments l, seen from
the engine g and the announcement a before it: the fault's effect, a granted request with it, and otherwise at most a
request for a header where the fetch cursor is out of any clip's data. -/
def FaultFetched (g : Engine) (a : Slot) (played : Bool) (x : Engine) (l : List Segment) : Prop :=
  ∃ request, FaultLeaves g a played x.fetch request l
    ∧ (∀ r, request = some r → r.granted = true → x.request = some r)
    ∧ (request = none → x.fetch.phase ≠ .data → ∀ r ∈ x.request, r.kind = .header)

section FaultFetched
variable {g x : Engine} {a : Slot} {l : List Segment}

theorem FaultFetched.granted {played : Bool} (fetched : FaultFetched g a played x l) {r : BurstRequest}
    (stands : g.request = some r) (granted : r.granted = true) : x.request = keptRequest played g.request := by
  obtain ⟨request, leaves, kept, -⟩ := fetched
  have same := leaves.granted stands granted
  rw [stands, keptRequest, if_pos granted] at same ⊢
  exact kept _ same granted

theorem FaultFetched.ungranted (fetched : FaultFetched g a true x l) {r : BurstRequest} (stands : g.request = some r)
    (waits : r.granted = false) : ∀ r' ∈ x.request, r'.kind = .header := by
  obtain ⟨request, leaves, -, asks⟩ := fetched
  obtain ⟨same, phase, -⟩ := leaves.inside rfl
  rw [stands, keptRequest, waits] at same
  exact asks same phase

end FaultFetched

section faultFrame
variable {s : State} {e : EngineId} {h : Handle} {kind : FaultKind} {progress : Progress} {clipPos fuel : Nat}
  {dec : Decoder} {ring : List Byte} {f : FetchCursor} {request : Option BurstRequest} {l : List Segment} {played : Bool}
  (law : s.BindingLaw) (bound : s.engines[e].binding = some h) (plays : s.engines[e].Plays)
  (run : (s.playAt e h).run s.dir
    = ((s.playAt e h).atFault progress clipPos dec ring f request l).passFault s.dir (fuel + 1) kind)
  (leaves : FaultLeaves s.engines[e] s.slots[handleSlot h] played f request l)
include law bound plays run leaves

/-- The frame that meets an announcement's first fault, on a segment before a GAP (R75). -/
theorem State.takeFrame_first_fault (stage : s.engines[e].play.stage = .segment)
    (none_ : s.slots[handleSlot h].faultCount = 0) {ms : Nat}
    (gap : s.slots[handleSlot h].segments[s.engines[e].play.seg + 1]? = some (.gap ms)) :
    FaultFetched s.engines[e] s.slots[handleSlot h] played s.takeFrame.engines[e] s.takeFrame.slots[handleSlot h].segments
      ∧ (s.engineFrame e).sample = 0
      ∧ ((∀ e' : EngineId, e' ≠ e → s.engines[e'].binding = none) →
          s.takeFrame.events = s.events.offer (EventRecord.segmentFault h s.slots[handleSlot h].tag
            s.engines[e].play.seg kind s.engines[e].play.pass)
          ∧ s.takeFrame.passPending = s.passPending)
      ∧ s.takeFrame.slots[handleSlot h] = { s.slots[handleSlot h] with
          faultCount := 1, segments := s.takeFrame.slots[handleSlot h].segments
          playPos := s.slots[handleSlot h].positionAt
            { s.engines[e].play with seg := s.engines[e].play.seg + 1 } }
      ∧ s.takeFrame.engines[e] = { s.engines[e] with
          play := { s.engines[e].play with seg := s.engines[e].play.seg + 1 }, progress := .begun
          framesRemaining := 48 * ms - 1, clipPos := 0, ring := ring
          dec := { s.takeFrame.engines[e].dec with previous := 0 }, underrun := false
          state := if s.engines[e].state = .fading then .fading else .running, fadePos := s.engines[e].fadeAfter
          fetch := s.takeFrame.engines[e].fetch, request := s.takeFrame.engines[e].request } := by
  obtain ⟨f', l', next, leaves'⟩ := Play.passFault_first (dir := s.dir) (p := s.playAt e h) (ring := ring)
    (progress := progress) (clipPos := clipPos) (dec := dec) (fuel := fuel) kind leaves stage none_ gap
  have run := run.trans next
  obtain ⟨r, eng⟩ := State.takeFrame_engine_frame bound plays run
  have whole := State.takeFrame_engine_plays bound plays run
  have slot := State.takeFrame_slot_plays law bound plays run
  have fetch : s.takeFrame.engines[e].fetch = f' := by rw [eng]; rfl
  refine ⟨⟨request, ?_, fun r stands granted => ?_, fun none_ phase => ?_⟩, ?_, fun only => ?_, ?_, ?_⟩
  · rw [fetch, slot]; exact leaves'
  · rw [whole]; exact Engine.request_stands _ (by exact stands) granted
  · rw [fetch] at phase
    rw [whole]
    exact fun r asked => Engine.request_asks_header _ (by exact none_) (by exact phase) asked
  · rw [State.engineFrame_sample bound plays run, Engine.handsOn_zero]
  · obtain ⟨events, pass⟩ := State.takeFrame_alone bound plays run only
    rw [events, pass, Bool.or_comm]
    exact ⟨rfl, rfl⟩
  · rw [slot]; rfl
  · rw [eng, ← plays.resumed]; rfl

/-- The frame that meets an announcement's second fault (R6, R75, R79). -/
theorem State.takeFrame_second_fault (one : s.slots[handleSlot h].faultCount = 1) :
    FaultFetched s.engines[e] s.slots[handleSlot h] played s.takeFrame.engines[e] s.takeFrame.slots[handleSlot h].segments
      ∧ (s.engineFrame e).sample = 0
      ∧ s.takeFrame.engines[e] = { s.engines[e] with
          play := { s.engines[e].play with stage := .halted }, progress := s.takeFrame.engines[e].progress
          clipPos := s.takeFrame.engines[e].clipPos, ring := ring, dec := s.takeFrame.engines[e].dec, underrun := false
          state := .fading, fadePriming := false
          fadePos := if s.slots[handleSlot h].state = .playing then 0 else s.engines[e].fadePos + 1
          fetch := s.takeFrame.engines[e].fetch, request := keptRequest played s.engines[e].request }
      ∧ ((∀ e' : EngineId, e' ≠ e → s.engines[e'].binding = none) →
          s.takeFrame.events = s.events.offer (EventRecord.segmentFault h s.slots[handleSlot h].tag
            s.engines[e].play.seg kind s.engines[e].play.pass)
          ∧ (s.slots[handleSlot h].state = .playing → s.takeFrame.passPending = true)
          ∧ (s.slots[handleSlot h].state = .stopping → s.takeFrame.passPending = s.passPending))
      ∧ (s.slots[handleSlot h].state = .playing → s.takeFrame.slots[handleSlot h] = { s.slots[handleSlot h] with
          state := .stopping, faultCount := 2, stop := some ⟨.aborted, false, none⟩
          segments := s.takeFrame.slots[handleSlot h].segments })
      ∧ (s.slots[handleSlot h].state = .stopping → s.takeFrame.slots[handleSlot h] = { s.slots[handleSlot h] with
          faultCount := 2, segments := s.takeFrame.slots[handleSlot h].segments
          stop := s.slots[handleSlot h].stop.map Stopping.faulted }) := by
  have on := law.fading bound
  obtain ⟨a, pass, halts, segments, playing, stopping⟩ := Play.passFault_second (dir := s.dir) (p := s.playAt e h)
    (ring := ring) (progress := progress) (clipPos := clipPos) (dec := dec) (f := f) (request := request) (l := l)
    (fuel := fuel + 1) kind one (on.imp And.left fun ⟨stopping, fading⟩ => ⟨stopping, fading, by
      obtain state | state | ⟨-, primed, -⟩ := plays
      · cases fading.symm.trans state
      · cases fading.symm.trans state
      · exact primed⟩)
  have run := run.trans halts
  have whole := State.takeFrame_engine_plays bound plays run
  rw [Engine.request_halted _ (by rfl) (by rfl)] at whole
  have slot := State.takeFrame_slot_plays law bound plays run
  have fetch : s.takeFrame.engines[e].fetch = f := by rw [whole]; rfl
  have kept : s.takeFrame.engines[e].request = request.filter (·.granted) := by rw [whole]; rfl
  refine ⟨⟨request, ?_, fun r stands granted => ?_, fun none_ _ r asked => ?_⟩, ?_, ?_, fun only => ?_, fun on => ?_,
    fun on => ?_⟩
  · rw [fetch, slot]; exact segments ▸ leaves
  · rw [kept, stands, Option.filter_some_pos granted]
  · rw [kept, none_] at asked; cases asked
  · rw [State.engineFrame_sample bound plays run, Engine.handsOn_zero]
  · have position : (if s.engines[e].state = .fading
          then (if s.slots[handleSlot h].state = .playing then 0 else s.engines[e].fadePos) + 1
          else if s.slots[handleSlot h].state = .playing then 0 else s.engines[e].fadePos)
        = if s.slots[handleSlot h].state = .playing then 0 else s.engines[e].fadePos + 1 := by
      obtain ⟨playing, moving⟩ | ⟨stopping, fading⟩ := on
      · rw [if_neg moving, if_pos playing, if_pos playing]
      · have other : s.slots[handleSlot h].state ≠ .playing := by rw [stopping]; decide
        rw [if_pos fading, if_neg other, if_neg other]
    rw [whole, ← leaves.withdrawn, ← position]
    rfl
  · obtain ⟨events, passes⟩ := State.takeFrame_alone bound plays run only
    rw [events, passes]
    refine ⟨rfl, fun on => ?_, fun on => ?_⟩
    · rw [(playing on).1, Bool.or_true]
    · rw [(stopping on).1]; exact Bool.or_false _
  · rw [slot]
    exact segments ▸ (playing on).2
  · rw [slot]
    exact segments ▸ (stopping on).2

end faultFrame

/-- Settles O34: the play side comes to the fault, and its count decides between the next segment and the halt. -/
theorem faultsSkipThenAbort : Obligations.FaultsSkipThenAbort := by
  intro s e g h i a kind ring fault kept up law eng bound slot record only runs stage faulted event standing
  subst eng slot record event
  have plays : s.engines[e].Plays := runs
  obtain ⟨faultKind, progress, clipPos, dec, f, request, l, code, run, leaves⟩ :=
    Play.run_faults (p := s.playAt e h) stage faulted
  subst code
  obtain rfl : kept = keptRequest (decide (faultKindCode faultKind = 2#8 ∧ s.engines[e].fetchesPlayed))
      s.engines[e].request := by
    rw [standing]
    cases s.engines[e].request <;> rfl
  have first := fun none_ (ms : Nat) gap => State.takeFrame_first_fault law bound plays run leaves stage none_ (ms := ms) gap
  have second := State.takeFrame_second_fault law bound plays run leaves
  refine ⟨_, _, exec_frame up, rfl, fun met => ?_, fun none_ ms gap => ?_, fun one => ?_⟩
  · have fetched := met.elim (fun one => (second one).1) fun ⟨none_, ms, gap⟩ => (first none_ ms gap).1
    refine ⟨fun r stands granted => fetched.granted stands granted, fun format played => ?_, fun other still => ?_⟩
    · rw [decide_eq_true ⟨format, played⟩] at fetched
      obtain ⟨_, after, -⟩ := id fetched
      exact ⟨fun r stands waits => fetched.ungranted stands waits, (after.inside rfl).2.2⟩
    · obtain ⟨_, after, -⟩ := fetched
      refine (after.elsewhere (decide_eq_false fun ⟨format, played⟩ => ?_)).2 still
      obtain mismatch | elsewhere := other
      · rw [format] at mismatch; cases mismatch
      · exact elsewhere played
  · obtain ⟨-, sample, queued, slot, eng⟩ := first none_ ms gap
    exact ⟨sample, (queued only).1, (queued only).2, slot, eng⟩
  · obtain ⟨-, sample, eng, queued, playing, stopping⟩ := second one
    obtain ⟨events, passes, keeps⟩ := queued only
    refine ⟨sample, events, eng, fun on => ⟨playing on, passes on⟩, fun why on stop => ⟨?_, keeps on⟩⟩
    have slot := stopping on
    rw [stop] at slot
    exact slot

end Sys2Proof.Machine

/-! ## The law of the zone stages, and the operations that keep it -/

namespace Sys2Proof.Machine

/-! ### One stage beside its zone record -/

/-- What the law of the zone stages says of one stage and its zone record (R42, R121, R125, R127, R129). -/
structure Stage.Sound (g : Stage) (r : ZoneRec) : Prop where
  volumeTarget : g.volumeTarget ≤ 128
  volumeCurrent : g.volumeCurrent ≤ 128
  idleHold : g.idleHold ≤ 255
  level : g.level ≤ 1024
  dac : g.dac ≤ 4095
  off : g.bias = .off → g.level = 0
  ready : g.bias = .ready → g.level = 1024
  owned : r.owner.isSome = true → g.bias = .ready ∧ g.fade = none
  fading : ∀ f ∈ g.fade, g.bias = .ready ∧ f.position ≤ 256
  timer : ∀ n ∈ g.idleTimer, n ≤ 2540 ∧ g.bias = .ready ∧ r.owner = none ∧ r.claimant = none ∧ g.fade = none

/-- A zone is idle where it is READY with neither owner nor claimant, and without zone fade (R121). -/
theorem State.zoneIdle_iff (s : State) (z : Zone) :
    s.zoneIdle z = true ↔ s.stages[z].bias = .ready ∧ s.zones[z].owner = none ∧ s.zones[z].claimant = none
      ∧ s.stages[z].fade = none := by
  simp [State.zoneIdle, and_assoc]

/-- The law of the zone stages, zone by zone. -/
theorem State.stageLaw_iff (s : State) : s.StageLaw ↔ ∀ z : Zone, s.stages[z].Sound s.zones[z] := by
  refine forall_congr' fun z => ⟨fun ⟨target, current, hold, level, dac, off, ready, owned, fading, timer⟩ => ?_,
    fun h => ⟨h.volumeTarget, h.volumeCurrent, h.idleHold, h.level, h.dac, h.off, h.ready, h.owned, h.fading,
      fun n hn => ?_⟩⟩
  · exact ⟨target, current, hold, level, dac, off, ready, owned, fading,
      fun n hn => ⟨(timer n hn).1, (s.zoneIdle_iff z).mp (timer n hn).2⟩⟩
  · exact ⟨(h.timer n hn).1, (s.zoneIdle_iff z).mpr (h.timer n hn).2⟩

section Sound
variable {g : Stage} {r : ZoneRec}

/-- An owner or a claimant may leave. -/
theorem Stage.Sound.leave (h : g.Sound r) {r' : ZoneRec} (owner : r'.owner = r.owner ∨ r'.owner = none)
    (claimant : r'.claimant = r.claimant ∨ r'.claimant = none) : g.Sound r' where
  __ := h
  owned := by
    rcases owner with eq | eq <;> rw [eq]
    · exact h.owned
    · nofun
  timer n hn := by
    obtain ⟨le, ready, own, claim, fade⟩ := h.timer n hn
    rw [own, or_self] at owner
    rw [claim, or_self] at claimant
    exact ⟨le, ready, owner, claimant, fade⟩

/-- An idle timer runs on an idle zone alone. -/
theorem Stage.Sound.stopped (h : g.Sound r) (busy : g.bias ≠ .ready ∨ r.owner ≠ none ∨ r.claimant ≠ none ∨ g.fade ≠ none) :
    g.idleTimer = none := by
  refine Option.eq_none_iff_forall_ne_some.mpr fun n eq => ?_
  obtain ⟨-, ready, own, claim, fade⟩ := h.timer n eq
  simp [ready, own, claim, fade] at busy

/-- A zone fade runs on a zone without owner (R53). -/
theorem Stage.Sound.unowned (h : g.Sound r) (busy : g.bias ≠ .ready ∨ g.fade ≠ none) : r.owner = none := by
  refine Option.not_isSome_iff_eq_none.mp fun some_ => ?_
  obtain ⟨ready, fade⟩ := h.owned some_
  simp [ready, fade] at busy

/-- A zone that is not READY has no zone fade (R132). -/
theorem Stage.Sound.unfaded (h : g.Sound r) (busy : g.bias ≠ .ready) : g.fade = none :=
  Option.eq_none_iff_forall_ne_some.mpr fun f eq => busy (h.fading f eq).1

/-- The idle hold of an idle zone begins (R125). -/
theorem Stage.Sound.startIdle (h : g.Sound r) (ready : g.bias = .ready) (owner : r.owner = none)
    (claimant : r.claimant = none) (fade : g.fade = none) : g.startIdle.Sound r := by
  unfold Stage.startIdle
  split
  · exact { h with
      off := nofun, ready := nofun, owned := by simp [owner], fading := by simp [fade], timer := nofun }
  · split
    · exact { h with timer := nofun }
    · refine { h with timer := fun n hn => ⟨?_, ready, owner, claimant, fade⟩ }
      obtain rfl := Option.some.inj hn
      have := h.idleHold
      omega

/-- The bias goes down at once where the zone has neither owner nor zone fade (R131, R139). -/
theorem Stage.Sound.rampDownNow (h : g.Sound r) (owner : r.owner = none) (fade : g.fade = none) :
    g.rampDownNow.Sound r := by
  have down : ({ g with bias := .rampDown, idleTimer := none } : Stage).Sound r :=
    { h with off := nofun, ready := nofun, owned := by simp [owner], fading := by simp [fade], timer := nofun }
  unfold Stage.rampDownNow
  split
  · exact { h with timer := nofun }
  · exact down
  · exact down
  · exact { h with timer := nofun }

/-- A zone fade starts on a READY zone whose owner has left (R132). -/
theorem Stage.Sound.startFade (h : g.Sound r) (ready : g.bias = .ready) (owner : r.owner = none) (cause : FadeCause) :
    (g.startFade cause).Sound r :=
  { h with
    owned := by simp [owner]
    fading := fun f hf => by obtain rfl := Option.some.inj hf; exact ⟨ready, Nat.zero_le _⟩
    timer := nofun }

/-- A claimant arrives (R124). -/
theorem Stage.Sound.claimantArrives (h : g.Sound r) (a : Handle) :
    g.claimantArrives.Sound { r with claimant := some a } := by
  have still (stopped : g.idleTimer = none) : g.Sound { r with claimant := some a } :=
    { h with timer := by simp [stopped] }
  have rises (b : Bias) (busy : g.bias ≠ .ready) (off : b = .off → g.level = 0) (ready : b = .ready → g.level = 1024) :
      ({ g with bias := b } : Stage).Sound { r with claimant := some a } :=
    { h with
      off := off, ready := ready, owned := by simp [h.unowned (.inl busy)], fading := by simp [h.unfaded busy]
      timer := by simp [h.stopped (.inl busy)] }
  unfold Stage.claimantArrives
  split
  · next is => exact rises _ (by simp [is]) nofun nofun
  · next is => exact still (h.stopped (.inl (by simp [is])))
  · exact { h with timer := nofun }
  · next is =>
    have busy : g.bias ≠ .ready := by simp [is]
    split
    · next top => exact rises _ busy nofun fun _ => Nat.le_antisymm h.level top
    · exact rises _ busy nofun nofun

/-- One frame of a stage that is handed its owner's sample, or none (R123, R127, R129, R132). -/
theorem Stage.Sound.frame (h : g.Sound r) (x : Option Int) : (g.frame x).Sound r := by
  have ramped (dac : Nat) (le : dac ≤ 4095) (last : Int) :
      ({ g with level := g.levelAfter, lastSample := last, dac := dac } : Stage).Sound r := by
    have := h.level
    refine { h with level := ?_, dac := le, off := fun is => ?_, ready := fun is => ?_ }
    · simp only [Stage.levelAfter]
      split <;> omega
    · simpa [Stage.levelAfter, show g.bias = .off from is] using h.off is
    · simpa [Stage.levelAfter, show g.bias = .ready from is] using h.ready is
  simp only [Stage.frame, Stage.rampFrame_eq]
  split
  · exact ramped _ (dacCode_le _ _) _
  · split
    · next f fade =>
      obtain ⟨ready, -⟩ := h.fading f fade
      have faded := ramped _ (dacCode_le g.levelAfter
        (audioTerm (if f.position < 256 then Machine.faded f.held f.position else 0) g.volumeCurrent)) g.lastSample
      have owner : r.owner = none := h.unowned (.inr (by simp [fade]))
      have timer : g.idleTimer = none := h.stopped (.inr (.inr (.inr (by simp [fade]))))
      exact { faded with
        owned := by simp [owner]
        fading := fun f' hf => by obtain rfl := Option.some.inj hf; exact ⟨ready, Nat.min_le_left _ _⟩
        timer := by simp [timer] }
    · exact ramped _ (dacCode_le _ _) _

theorem Stage.Sound.slew (h : g.Sound r) : g.slew.Sound r := by
  rw [Stage.slew_eq]
  refine { h with volumeCurrent := ?_ }
  have := h.volumeCurrent
  have := h.volumeTarget
  simp only
  split
  · omega
  · split <;> omega

theorem Stage.Sound.tick (h : g.Sound r) : g.tick.Sound r := by
  refine { h with timer := fun n hn => ?_ }
  obtain ⟨m, hm, rfl⟩ := Option.mem_map.mp hn
  obtain ⟨le, idle⟩ := h.timer m hm
  exact ⟨(Nat.sub_le m 1).trans le, idle⟩

end Sound

/-! ### Operations on one stage or one zone record -/

/-- A step apart from zone records and stages. -/
theorem State.StageLaw.of_frame {s t : State} (law : s.StageLaw) (zones : t.zones = s.zones)
    (stages : t.stages = s.stages) : t.StageLaw := by
  rw [State.stageLaw_iff, zones, stages]
  exact s.stageLaw_iff.mp law

theorem State.StageLaw.sound {s : State} (law : s.StageLaw) (z : Zone) : s.stages[z].Sound s.zones[z] :=
  s.stageLaw_iff.mp law z

/-- One zone's stage and record change. -/
theorem State.StageLaw.update {s t : State} (law : s.StageLaw) {z : Zone}
    (sound : t.stages[z].Sound t.zones[z])
    (others : ∀ w : Zone, w ≠ z → t.stages[w] = s.stages[w] ∧ t.zones[w] = s.zones[w]) : t.StageLaw := by
  refine t.stageLaw_iff.mpr fun w => ?_
  by_cases e : w = z
  · subst e; exact sound
  · rw [(others w e).1, (others w e).2]; exact law.sound w

theorem State.StageLaw.setStage {s : State} (law : s.StageLaw) {z : Zone} {x : Stage} (sound : x.Sound s.zones[z]) :
    (s.setStage z x).StageLaw := by
  refine law.update (z := z) ?_ fun w e => ⟨s.setStage_get_other z w x e, rfl⟩
  rw [State.setStage_get_self]
  exact sound

theorem State.StageLaw.setZone {s : State} (law : s.StageLaw) {z : Zone} {x : ZoneRec} (sound : s.stages[z].Sound x) :
    (s.setZone z x).StageLaw := by
  refine law.update (z := z) ?_ fun w e => ⟨rfl, s.setZone_get_other z w x e⟩
  rw [State.setZone_get_self]
  exact sound

theorem State.StageLaw.settleIdle {s : State} (law : s.StageLaw) (z : Zone) : (s.settleIdle z).StageLaw := by
  unfold State.settleIdle
  split
  · next idle =>
    obtain ⟨ready, owner, claimant, fade⟩ := (s.zoneIdle_iff z).mp idle
    exact law.setStage ((law.sound z).startIdle ready owner claimant fade)
  · exact law

/-! ### Claims and owners -/

theorem State.StageLaw.withdrawClaims {s : State} (law : s.StageLaw) (h : Handle) : (s.withdrawClaims h).StageLaw :=
  List.foldlRecOn (motive := State.StageLaw) _ _ law fun t ht z _ => by
    split
    · exact (ht.setZone (z := z) (x := { t.zones[z] with claimant := none })
        ((ht.sound z).leave (.inl rfl) (.inr rfl))).settleIdle z
    · exact ht

theorem State.StageLaw.claimLoss {s : State} (law : s.StageLaw) (i : SlotId) : (s.claimLoss i).StageLaw :=
  (law.withdrawClaims (s.handleAt i)).of_frame rfl rfl

/-- A start check touches neither zones nor stages (R41). -/
theorem State.StageLaw.startCheckZone {s : State} (law : s.StageLaw) (z : Zone) : (s.startCheckZone z).StageLaw := by
  obtain ⟨slots, eq, -⟩ := s.startCheckZone_frame z
  rw [eq]
  exact law.of_frame rfl rfl

theorem State.StageLaw.releaseZones {s : State} (law : s.StageLaw) (h : Handle) : (s.releaseZones h).StageLaw :=
  List.foldlRecOn (motive := State.StageLaw) _ _ law fun t ht z _ => by
    split
    · exact ((ht.setZone (z := z) (x := { t.zones[z] with owner := none })
        ((ht.sound z).leave (.inr rfl) (.inl rfl))).settleIdle z).startCheckZone z
    · exact ht

/-- Giving up its engine too touches neither zones nor stages (R58). -/
theorem State.giveUp_stages (s : State) (i : SlotId) :
    (s.giveUp i).zones = (s.releaseZones (s.handleAt i)).zones
      ∧ (s.giveUp i).stages = (s.releaseZones (s.handleAt i)).stages := by
  unfold State.giveUp
  generalize s.releaseZones (s.handleAt i) = t
  unfold State.unbindOf
  split <;> exact ⟨rfl, rfl⟩

theorem State.StageLaw.giveUp {s : State} (law : s.StageLaw) (i : SlotId) : (s.giveUp i).StageLaw :=
  (law.releaseZones (s.handleAt i)).of_frame (s.giveUp_stages i).1 (s.giveUp_stages i).2

/-- An announcement that has given up zones and engine is freed or requeued: no other record of announcement, zone,
stage or engine changes (R28, R49). -/
structure State.Retires (s t : State) (i : SlotId) : Prop extends s.Dismisses t i where
  engines : t.engines = s.engines
  engine : t.slots[i].engine = none

theorem State.freeSlot_retires (s : State) (i : SlotId) (o : AnnOutcome) : s.Retires (s.freeSlot i o) i :=
  ⟨s.freeSlot_dismisses i o, rfl, congrArg Slot.engine (s.setSlot_get_self i _)⟩

theorem State.requeue_retires (s : State) (i : SlotId) (a : RequeueAction) (by_ : Byte) :
    s.Retires (s.requeue i a by_) i :=
  ⟨s.requeue_dismisses i a by_, rfl, congrArg Slot.engine (s.setSlot_get_self i _)⟩

theorem State.dispose_retires (s : State) (i : SlotId) : s.Retires (s.dispose i) i := by
  rcases s.dispose_cases i with ⟨o, eq⟩ | ⟨a, by_, eq⟩ <;> rw [eq]
  · exact s.freeSlot_retires i o
  · exact s.requeue_retires i a by_

theorem State.Retires.requestPass {s t : State} {i : SlotId} (r : s.Retires t i) : s.Retires t.requestPass i :=
  ⟨⟨r.zones, r.stages, r.others, r.offAir⟩, r.engines, r.engine⟩

/-- The end of a fade frees or requeues the announcement, which has given up zones and engine (R47). -/
theorem State.endFade_retires (s : State) (i : SlotId) : (s.giveUp i).Retires (s.endFade i) i :=
  (State.dispose_retires (s.giveUp i) i).requestPass

theorem State.StageLaw.retired {s t : State} {i : SlotId} (law : s.StageLaw) (r : (s.giveUp i).Retires t i) :
    t.StageLaw := (law.giveUp i).of_frame r.zones r.stages

/-- Entering STOPPING touches neither zones nor stages (R6, R79). -/
theorem State.StageLaw.enterStopping {s : State} (law : s.StageLaw) (i : SlotId) (why : Stopping) :
    (s.enterStopping i why).StageLaw := by
  unfold State.enterStopping
  simp only
  split <;> exact law.of_frame rfl rfl

/-! ### ZONE_SET -/

theorem State.StageLaw.zoneTaken {s : State} (law : s.StageLaw) (i : SlotId) (z : Zone) : (s.zoneTaken i z).StageLaw :=
  (law.setZone (z := z) (x := { s.zones[z] with owner := none })
    ((law.sound z).leave (.inr rfl) (.inl rfl))).of_frame rfl rfl

/-- Everything an owner that loses a zone can do (R52, R53): it goes on without the zone; or its last zone is gone, and
it gives up its engine and is freed or requeued. -/
theorem State.ownerLosesZone_cases (s : State) (i : SlotId) (z : Zone) :
    s.ownerLosesZone i z = s.zoneTaken i z
      ∨ ((s.zoneTaken i z).slots[i].state = .playing ∨ (s.zoneTaken i z).slots[i].state = .stopping)
        ∧ ((s.zoneTaken i z).giveUp i).Retires (s.ownerLosesZone i z) i := by
  unfold State.ownerLosesZone
  simp only
  rw [← State.zoneTaken]
  split
  · exact .inl rfl
  · split
    · next playing =>
      refine .inr ⟨.inl playing, ?_⟩
      split
      · exact State.freeSlot_retires _ i _
      · exact State.requeue_retires _ i _ _
      · exact State.requeue_retires _ i _ _
    · next stopping => exact .inr ⟨.inr stopping, State.endFade_retires _ i⟩
    all_goals exact .inl rfl

theorem State.StageLaw.ownerLosesZone {s : State} (law : s.StageLaw) (i : SlotId) (z : Zone) :
    (s.ownerLosesZone i z).StageLaw := by
  rcases s.ownerLosesZone_cases i z with eq | ⟨-, r⟩
  · rw [eq]; exact law.zoneTaken i z
  · exact (law.zoneTaken i z).retired r

/-- A zone that has lost its owner so keeps its stage, and has none afterwards (R52, R131). -/
theorem State.ownerLosesZone_zone (s : State) (i : SlotId) (z : Zone) :
    (s.ownerLosesZone i z).zones[z].owner = none ∧ (s.ownerLosesZone i z).stages[z] = s.stages[z] := by
  rcases s.ownerLosesZone_cases i z with eq | ⟨-, r⟩
  · rw [eq, State.zoneTaken_zone]; exact ⟨rfl, rfl⟩
  · obtain ⟨zones, stages⟩ := (s.zoneTaken i z).giveUp_stages i
    obtain ⟨zones', stages', slots', eq, -, at_⟩ := (s.zoneTaken i z).releaseZones_eq ((s.zoneTaken i z).handleAt i)
    have none_ : ¬ (s.zoneTaken i z).zones[z].owner = some ((s.zoneTaken i z).handleAt i) := by
      rw [State.zoneTaken_zone]; nofun
    rw [r.zones, r.stages, zones, stages, eq]
    simp only
    rw [(at_ z).1, (at_ z).2, if_neg none_, if_neg fun h => none_ h.1, State.zoneTaken_zone]
    exact ⟨rfl, rfl⟩

/-- A zone with an owner stays as it is when claims are lost, but for its claimant (R39). -/
theorem State.claimLoss_owned {s : State} (i : SlotId) {z : Zone} (owned : s.zones[z].owner ≠ none) :
    (s.claimLoss i).zones[z].owner = s.zones[z].owner ∧ (s.claimLoss i).stages[z] = s.stages[z] := by
  obtain ⟨zones, stages, eq, at_⟩ := s.withdrawClaims_eq (s.handleAt i)
  simp only [State.claimLoss, eq, State.setSlot_zones, State.setSlot_stages]
  rw [(at_ z).1, (at_ z).2]
  refine ⟨?_, if_neg fun ⟨_, unowned, _⟩ => owned unowned⟩
  split <;> rfl

/-- The scheduler's part of a disable leaves the zone without owner, and an owner's zone with its stage (R52, R131). -/
theorem State.disableInScheduler_zone (s : State) (z : Zone) :
    (s.disableInScheduler z).zones[z].owner = none
      ∧ (s.zones[z].owner ≠ none → (s.disableInScheduler z).stages[z] = s.stages[z]) := by
  have owner (t : State) :
      (match t.zones[z].owner with
        | some h => t.ownerLosesZone (handleSlot h) z
        | none => t).zones[z].owner = none
      ∧ (match t.zones[z].owner with
        | some h => t.ownerLosesZone (handleSlot h) z
        | none => t).stages[z] = t.stages[z] := by
    split
    · exact t.ownerLosesZone_zone _ z
    · next unowned => exact ⟨unowned, rfl⟩
  unfold State.disableInScheduler
  simp only
  refine ⟨(owner _).1, fun owned => (owner _).2.trans ?_⟩
  split
  · exact (State.claimLoss_owned _ owned).2
  · rfl

theorem State.StageLaw.disableInScheduler {s : State} (law : s.StageLaw) (z : Zone) :
    (s.disableInScheduler z).StageLaw := by
  have owner (t : State) (ht : t.StageLaw) :
      (match t.zones[z].owner with
        | some h => t.ownerLosesZone (handleSlot h) z
        | none => t).StageLaw := by
    split
    · exact ht.ownerLosesZone _ z
    · exact ht
  unfold State.disableInScheduler
  simp only
  apply owner
  split
  · exact law.claimLoss _
  · exact law

/-- The stage's part of a disable: a zone fade from an owner, or a ramp down (R131). -/
theorem State.StageLaw.disableZone {s : State} (law : s.StageLaw) (z : Zone) : (s.disableZone z).StageLaw := by
  have recorded : (s.setStage z { s.stages[z] with enabled := false }).StageLaw :=
    law.setStage { law.sound z with }
  obtain ⟨unowned, kept⟩ := (s.setStage z { s.stages[z] with enabled := false }).disableInScheduler_zone z
  have scheduled := recorded.disableInScheduler z
  unfold State.disableZone
  simp only
  generalize (s.setStage z { s.stages[z] with enabled := false }).disableInScheduler z = t at unowned kept scheduled ⊢
  have sound := scheduled.sound z
  refine State.StageLaw.of_frame (scheduled.setStage (z := z) (x := t.stages[z].disabled s.zones[z].owner.isSome) ?_) rfl rfl
  unfold Stage.disabled
  split
  · next had =>
    refine sound.startFade ?_ unowned _
    rw [kept (by simpa [Option.isSome_iff_ne_none] using had), State.setStage_get_self]
    exact ((law.sound z).owned had).1
  · split
    · exact sound
    · next faded => exact sound.rampDownNow unowned (Option.not_isSome_iff_eq_none.mp faded)

theorem State.StageLaw.setEnable {s : State} (law : s.StageLaw) (z : Zone) (enable : Bool) :
    (s.setEnable z enable).StageLaw := by
  unfold State.setEnable
  split
  · exact law
  · split
    · exact State.StageLaw.of_frame (law.setStage (z := z) (x := { s.stages[z] with enabled := true })
        { law.sound z with }) rfl rfl
    · exact law.disableZone z

theorem State.StageLaw.setIdleHold {s : State} (law : s.StageLaw) (z : Zone) {hold : Nat} (le : hold ≤ 255) :
    (s.setIdleHold z hold).StageLaw := by
  unfold State.setIdleHold
  split
  · exact law
  · exact (law.setStage (z := z) (x := { s.stages[z] with idleHold := hold })
      { law.sound z with idleHold := le }).settleIdle z

theorem State.StageLaw.setVolume {s : State} (law : s.StageLaw) (z : Zone) {volume : Nat} (le : volume ≤ 128) :
    (s.setVolume z volume).StageLaw := law.setStage { law.sound z with volumeTarget := le }

theorem zoneSetBody_stageLaw (p : Params) {s : State} (law : s.StageLaw) : (zoneSetBody p s).1.StageLaw := by
  unfold zoneSetBody
  split
  · split
    · exact law
    · next ok =>
      have := p[3].isLt
      exact ((law.setVolume _ (by omega)).setIdleHold _ (by omega)).setEnable _ _
  · exact law

/-! ### Soft reset -/

/-- The zone stages' part of a soft reset (R139), with every owner and claimant gone (R54). -/
theorem Stage.Sound.softReset {g : Stage} {r : ZoneRec} (h : g.Sound r) :
    (g.softReset r.owner.isSome).Sound { owner := none, claimant := none } := by
  have left : g.Sound { owner := none, claimant := none } := h.leave (.inr rfl) (.inr rfl)
  unfold Stage.softReset
  split
  · next owned => exact left.startFade (h.owned owned).1 rfl _
  · split
    · next f fade =>
      obtain ⟨ready, le⟩ := h.fading f fade
      exact { left with
        owned := nofun
        fading := fun f' hf => by obtain rfl := Option.some.inj hf; exact ⟨ready, le⟩
        timer := nofun }
    · next fade => exact left.rampDownNow rfl fade

/-- Each stage after a soft reset (R139). -/
theorem State.softReset_stage (s : State) (z : Zone) :
    s.softReset.stages[z] = s.stages[z].softReset s.zones[z].owner.isSome := by
  obtain ⟨_, _, _, eq⟩ := State.softReset_eq s
  rw [eq]
  simp

end Sys2Proof.Machine

/-! ## The law of bindings, and the operations that keep it -/

namespace Sys2Proof.Machine

/-! ### Engines and the announcements they serve -/

/-- Engine e serves the announcement in slot i: each is bound to the other, the announcement is PLAYING or STOPPING, and
the engine FADING exactly for the latter (R42, R56). -/
structure State.Serves (s : State) (e : EngineId) (i : SlotId) : Prop where
  binding : s.engines[e].binding = some (s.handleAt i)
  engine : s.slots[i].engine = some e
  busy : s.engines[e].state ≠ .idle
  going : s.slots[i].state = .playing ∨ s.slots[i].state = .stopping
  fading : s.engines[e].state = .fading ↔ s.slots[i].state = .stopping

/-- The pair's two records alone decide. -/
theorem State.Serves.congr {s t : State} {e : EngineId} {i : SlotId} (h : s.Serves e i)
    (engine : t.engines[e] = s.engines[e]) (slot : t.slots[i] = s.slots[i]) : t.Serves e i := by
  refine ⟨?_, ?_, ?_, ?_, ?_⟩ <;> simp only [State.handleAt, engine, slot]
  · exact h.binding
  · exact h.engine
  · exact h.busy
  · exact h.going
  · exact h.fading

/-- An engine that is bound to no announcement is IDLE (R58). -/
structure Engine.Unbound (g : Engine) : Prop where
  binding : g.binding = none
  idle : g.state = .idle

/-- An announcement that is neither PLAYING nor STOPPING has no engine (R42). -/
structure Slot.Silent (a : Slot) : Prop where
  engine : a.engine = none
  notPlaying : a.state ≠ .playing
  notStopping : a.state ≠ .stopping

/-- The law of bindings, pair by pair: each engine serves an announcement or is unbound, and each announcement is served
or silent. -/
theorem State.bindingLaw_iff (s : State) :
    s.BindingLaw ↔ (∀ e : EngineId, s.engines[e].Unbound ∨ ∃ i, s.Serves e i)
      ∧ ∀ i : SlotId, s.slots[i].Silent ∨ ∃ e, s.Serves e i := by
  constructor
  · rintro ⟨engines, slots⟩
    have serves {e : EngineId} {i : SlotId} (engine : s.slots[i].engine = some e) : s.Serves e i := by
      have binding := (slots i).2 e engine
      have going := (slots i).1.mp (by rw [engine]; rfl)
      obtain ⟨-, -, fading⟩ := (engines e).2 _ binding
      simp only [handleSlot_handleAt] at fading
      have busy : s.engines[e].state ≠ .idle := fun idle => nomatch binding.symm.trans ((engines e).1.mpr idle)
      exact ⟨binding, engine, busy, going, fading⟩
    refine ⟨fun e => ?_, fun i => ?_⟩
    · cases b : s.engines[e].binding with
      | none => exact .inl ⟨b, (engines e).1.mp b⟩
      | some h => exact .inr ⟨_, serves ((engines e).2 h b).2.1⟩
    · cases b : s.slots[i].engine with
      | none =>
        have still := mt (slots i).1.mpr (by rw [b]; nofun)
        exact .inl ⟨b, (not_or.mp still).1, (not_or.mp still).2⟩
      | some e => exact .inr ⟨e, serves b⟩
  · rintro ⟨engines, slots⟩
    refine ⟨fun e => ?_, fun i => ?_⟩
    · obtain unbound | ⟨i, serves⟩ := engines e
      · exact ⟨iff_of_true unbound.binding unbound.idle, by rw [unbound.binding]; nofun⟩
      · refine ⟨iff_of_false (by rw [serves.binding]; nofun) serves.busy, fun h bound => ?_⟩
        obtain rfl := Option.some.inj (serves.binding.symm.trans bound)
        simp only [handleSlot_handleAt]
        exact ⟨trivial, serves.engine, serves.fading⟩
    · obtain silent | ⟨e, serves⟩ := slots i
      · refine ⟨iff_of_false (by rw [silent.engine]; nofun) (not_or.mpr ⟨silent.notPlaying, silent.notStopping⟩), ?_⟩
        rw [silent.engine]
        nofun
      · refine ⟨iff_of_true (by rw [serves.engine]; rfl) serves.going, fun e' eq => ?_⟩
        obtain rfl := Option.some.inj (serves.engine.symm.trans eq)
        exact serves.binding

/-- A PLAYING or STOPPING announcement is served. -/
theorem State.BindingLaw.served {s : State} (law : s.BindingLaw) {i : SlotId}
    (going : s.slots[i].state = .playing ∨ s.slots[i].state = .stopping) : ∃ e, s.Serves e i :=
  ((s.bindingLaw_iff.mp law).2 i).resolve_left fun silent => going.elim silent.notPlaying silent.notStopping

/-- Any other announcement is silent. -/
theorem State.BindingLaw.silent {s : State} (law : s.BindingLaw) {i : SlotId} (notPlaying : s.slots[i].state ≠ .playing)
    (notStopping : s.slots[i].state ≠ .stopping) : s.slots[i].Silent :=
  ((s.bindingLaw_iff.mp law).2 i).resolve_right fun ⟨_, serves⟩ => serves.going.elim notPlaying notStopping

/-- An engine without binding is unbound. -/
theorem State.BindingLaw.unbound {s : State} (law : s.BindingLaw) {e : EngineId} (none_ : s.engines[e].binding = none) :
    s.engines[e].Unbound :=
  ((s.bindingLaw_iff.mp law).1 e).resolve_right fun ⟨_, serves⟩ => by rw [serves.binding] at none_; cases none_

/-- A step that leaves every pair, every unbound engine and every silent announcement as such keeps the law. -/
theorem State.BindingLaw.of_pairs {s t : State} (law : s.BindingLaw) (serves : ∀ e i, s.Serves e i → t.Serves e i)
    (unbound : ∀ e : EngineId, s.engines[e].Unbound → t.engines[e].Unbound)
    (silent : ∀ i : SlotId, s.slots[i].Silent → t.slots[i].Silent) : t.BindingLaw := by
  obtain ⟨engines, slots⟩ := s.bindingLaw_iff.mp law
  exact t.bindingLaw_iff.mpr ⟨fun e => (engines e).imp (unbound e) fun ⟨i, h⟩ => ⟨i, serves e i h⟩,
    fun i => (slots i).imp (silent i) fun ⟨e, h⟩ => ⟨e, serves e i h⟩⟩

/-! ### Steps that leave the bindings -/

/-- Two records that the law of bindings does not tell apart. -/
structure Slot.SameBinding (a b : Slot) : Prop where
  generation : b.generation = a.generation
  engine : b.engine = a.engine
  playing : b.state = .playing ↔ a.state = .playing
  stopping : b.state = .stopping ↔ a.state = .stopping

theorem Slot.SameBinding.refl (a : Slot) : a.SameBinding a := ⟨rfl, rfl, .rfl, .rfl⟩

theorem Slot.SameBinding.trans {a b c : Slot} (h : a.SameBinding b) (k : b.SameBinding c) : a.SameBinding c :=
  ⟨k.generation.trans h.generation, k.engine.trans h.engine, k.playing.trans h.playing, k.stopping.trans h.stopping⟩

/-- A record that kept handle, engine and state. -/
theorem Slot.SameBinding.of_eq {a b : Slot} (generation : b.generation = a.generation) (engine : b.engine = a.engine)
    (state : b.state = a.state) : a.SameBinding b := ⟨generation, engine, by rw [state], by rw [state]⟩

/-- Two engines that the law of bindings does not tell apart. -/
structure Engine.SameBinding (a b : Engine) : Prop where
  binding : b.binding = a.binding
  state : b.state = a.state

/-- A step that leaves what the law of bindings speaks of. -/
structure State.SameBindings (s t : State) : Prop where
  slots : ∀ i : SlotId, s.slots[i].SameBinding t.slots[i]
  engines : ∀ e : EngineId, s.engines[e].SameBinding t.engines[e]

theorem State.SameBindings.refl (s : State) : s.SameBindings s := ⟨fun _ => .refl _, fun _ => ⟨rfl, rfl⟩⟩

theorem State.SameBindings.trans {s t u : State} (h : s.SameBindings t) (k : t.SameBindings u) : s.SameBindings u :=
  ⟨fun i => (h.slots i).trans (k.slots i),
    fun e => ⟨(k.engines e).binding.trans (h.engines e).binding, (k.engines e).state.trans (h.engines e).state⟩⟩

/-- A step apart from announcements and engines. -/
theorem State.SameBindings.of_frame {s t : State} (slots : t.slots = s.slots) (engines : t.engines = s.engines) :
    s.SameBindings t :=
  ⟨fun i => by rw [slots]; exact .refl _, fun e => by rw [engines]; exact ⟨rfl, rfl⟩⟩

theorem State.SameBindings.setSlot {s t : State} (h : s.SameBindings t) {i : SlotId} {x : Slot}
    (same : t.slots[i].SameBinding x) : s.SameBindings (t.setSlot i x) := by
  refine h.trans ⟨fun j => ?_, fun e => ⟨rfl, rfl⟩⟩
  by_cases e : j = i
  · subst e; rw [State.setSlot_get_self]; exact same
  · rw [State.setSlot_get_other _ _ _ _ e]; exact .refl _

theorem State.SameBindings.setEngine {s t : State} (h : s.SameBindings t) {e : EngineId} {x : Engine}
    (binding : x.binding = t.engines[e].binding) (state : x.state = t.engines[e].state) :
    s.SameBindings (t.setEngine e x) := by
  refine h.trans ⟨fun _ => .refl _, fun f => ?_⟩
  by_cases same : f = e
  · subst same; rw [State.setEngine_get_self]; exact ⟨binding, state⟩
  · rw [State.setEngine_get_other _ _ _ _ same]; exact ⟨rfl, rfl⟩

theorem State.SameBindings.serves {s t : State} (h : s.SameBindings t) {e : EngineId} {i : SlotId}
    (serves : s.Serves e i) : t.Serves e i := by
  have slot := h.slots i
  have engine := h.engines e
  refine ⟨?_, slot.engine.trans serves.engine, by rw [engine.state]; exact serves.busy, ?_, ?_⟩
  · rw [engine.binding, serves.binding, State.handleAt, State.handleAt, slot.generation]
  · rw [slot.playing, slot.stopping]; exact serves.going
  · rw [engine.state, slot.stopping]; exact serves.fading

theorem State.SameBindings.law {s t : State} (h : s.SameBindings t) (law : s.BindingLaw) : t.BindingLaw := by
  refine law.of_pairs (fun e i => h.serves) (fun e unbound => ?_) fun i silent => ?_
  · exact ⟨(h.engines e).binding.trans unbound.binding, (h.engines e).state.trans unbound.idle⟩
  · have slot := h.slots i
    exact ⟨slot.engine.trans silent.engine, mt slot.playing.mp silent.notPlaying, mt slot.stopping.mp silent.notStopping⟩

theorem State.SameBindings.withdrawClaims {s t : State} (k : s.SameBindings t) (h : Handle) :
    s.SameBindings (t.withdrawClaims h) := by
  obtain ⟨zones, stages, eq, -⟩ := t.withdrawClaims_eq h
  rw [eq]
  exact k.trans (.of_frame rfl rfl)

theorem Slot.loseClaims_sameBinding (a : Slot) : a.SameBinding a.loseClaims := by
  unfold Slot.loseClaims
  split
  · next granted => exact ⟨rfl, rfl, by simp [granted], by simp [granted]⟩
  · exact .refl a

theorem State.SameBindings.claimLoss {s t : State} (h : s.SameBindings t) (i : SlotId) :
    s.SameBindings (t.claimLoss i) := (h.withdrawClaims _).setSlot (Slot.loseClaims_sameBinding _)

theorem State.SameBindings.startCheck {s t : State} (h : s.SameBindings t) (i : SlotId) :
    s.SameBindings (t.startCheck i) := by
  rw [State.startCheck_eq]
  exact h.setSlot (.of_eq rfl rfl rfl)

theorem State.SameBindings.startCheckZone {s t : State} (h : s.SameBindings t) (z : Zone) :
    s.SameBindings (t.startCheckZone z) := by
  unfold State.startCheckZone
  split
  · exact h.startCheck _
  · exact h

theorem State.SameBindings.settleIdle {s t : State} (h : s.SameBindings t) (z : Zone) :
    s.SameBindings (t.settleIdle z) := by
  rw [State.settleIdle_eq]
  exact h.trans (.of_frame rfl rfl)

theorem State.SameBindings.releaseZones {s t : State} (k : s.SameBindings t) (h : Handle) :
    s.SameBindings (t.releaseZones h) := by
  obtain ⟨zones, stages, slots, eq, due, -⟩ := t.releaseZones_eq h
  rw [eq]
  refine k.trans ⟨fun j => ?_, fun _ => ⟨rfl, rfl⟩⟩
  obtain ⟨d, hd⟩ := due j
  simp only [hd]
  exact .of_eq rfl rfl rfl

/-- Giving up zones and engine: the zones first, then the engine and the record's two fields (R47, R58). -/
theorem State.giveUp_released (s : State) (i : SlotId) {e : EngineId}
    (engine : (s.releaseZones (s.handleAt i)).slots[i].engine = some e) :
    s.giveUp i = { s.releaseZones (s.handleAt i) with
      engines := (s.releaseZones (s.handleAt i)).engines.set e
        (Engine.idle ((s.releaseZones (s.handleAt i)).engines[e].epoch + 1#8))
      slots := (s.releaseZones (s.handleAt i)).slots.set i
        { (s.releaseZones (s.handleAt i)).slots[i] with effZones := 0#4, engine := none } } := by
  unfold State.giveUp
  generalize s.releaseZones (s.handleAt i) = t at engine ⊢
  rw [State.unbindOf_some engine]
  rfl

/-! ### Steps that change one binding -/

/-- Announcement i and engine e change together: either serves the other or is alone, before and after. -/
theorem State.BindingLaw.update {s t : State} (law : s.BindingLaw) {e : EngineId} {i : SlotId}
    (was : s.Serves e i ∨ (s.engines[e].Unbound ∧ s.slots[i].Silent))
    (is : t.Serves e i ∨ (t.engines[e].Unbound ∧ t.slots[i].Silent))
    (engines : ∀ f : EngineId, f ≠ e → t.engines[f] = s.engines[f])
    (slots : ∀ j : SlotId, j ≠ i → t.slots[j] = s.slots[j]) : t.BindingLaw := by
  have only {f : EngineId} {j : SlotId} (serves : s.Serves f j) : f = e ↔ j = i := by
    constructor <;> rintro rfl <;> rcases was with was | ⟨unbound, silent⟩
    · exact State.handleAt_inj (Option.some.inj (serves.binding.symm.trans was.binding))
    · have := serves.binding.symm.trans unbound.binding
      cases this
    · exact Option.some.inj (serves.engine.symm.trans was.engine)
    · have := serves.engine.symm.trans silent.engine
      cases this
  obtain ⟨engines', slots'⟩ := s.bindingLaw_iff.mp law
  refine t.bindingLaw_iff.mpr ⟨fun f => ?_, fun j => ?_⟩
  · by_cases same : f = e
    · subst same; exact is.symm.imp And.left fun serves => ⟨i, serves⟩
    · obtain unbound | ⟨j, serves⟩ := engines' f
      · exact .inl (engines f same ▸ unbound)
      · exact .inr ⟨j, serves.congr (engines f same) (slots j (mt (only serves).mpr same))⟩
  · by_cases same : j = i
    · subst same; exact is.symm.imp And.right fun serves => ⟨e, serves⟩
    · obtain silent | ⟨f, serves⟩ := slots' j
      · exact .inl (slots j same ▸ silent)
      · exact .inr ⟨f, serves.congr (engines f (mt (only serves).mp same)) (slots j same)⟩

/-- A silent announcement's record becomes another such record (R18, R28). -/
theorem State.BindingLaw.update_silent {s t : State} (law : s.BindingLaw) {i : SlotId} (was : s.slots[i].Silent)
    (is : t.slots[i].Silent) (engines : t.engines = s.engines) (slots : ∀ j : SlotId, j ≠ i → t.slots[j] = s.slots[j]) :
    t.BindingLaw := by
  refine law.of_pairs (fun e j serves => ?_) (fun e unbound => by rw [engines]; exact unbound) fun j silent => ?_
  · refine serves.congr (by rw [engines]) (slots j ?_)
    rintro rfl
    exact serves.going.elim was.notPlaying was.notStopping
  · by_cases same : j = i
    · subst same; exact is
    · exact slots j same ▸ silent

/-- A PLAYING announcement becomes STOPPING as its engine enters FADING (R6, R79). -/
theorem State.BindingLaw.enterStopping {s : State} (law : s.BindingLaw) {i : SlotId}
    (playing : s.slots[i].state = .playing) (why : Stopping) : (s.enterStopping i why).BindingLaw := by
  obtain ⟨e, serves⟩ := law.served (.inl playing)
  rw [State.enterStopping_some serves.engine]
  have engine : (s.engines.set e s.engines[e].enterFading)[e] = s.engines[e].enterFading := s.setEngine_get_self e _
  have slot : (s.slots.set i { s.slots[i] with state := .stopping, stop := some why })[i]
      = { s.slots[i] with state := .stopping, stop := some why } := s.setSlot_get_self i _
  refine law.update (.inl serves) (.inl ⟨?_, ?_, ?_, ?_, ?_⟩) (fun f other => s.setEngine_get_other e f _ other)
    fun j other => s.setSlot_get_other i j _ other
  · simp only [State.handleAt, engine, slot]; exact serves.binding
  · simp only [slot]; exact serves.engine
  · simp only [engine]; nofun
  · simp only [slot]; exact .inr trivial
  · simp only [engine, slot]; exact iff_of_true rfl trivial

/-- An announcement that gives up zones and engine, and is then freed or requeued, leaves its engine unbound
(R47, R50, R58). -/
theorem State.BindingLaw.retired {s t : State} (law : s.BindingLaw) {i : SlotId}
    (going : s.slots[i].state = .playing ∨ s.slots[i].state = .stopping) (r : (s.giveUp i).Retires t i) :
    t.BindingLaw := by
  obtain ⟨e, serves⟩ := law.served going
  have same := (State.SameBindings.refl s).releaseZones (s.handleAt i)
  have gave := s.giveUp_released i (same.serves serves).engine
  generalize s.releaseZones (s.handleAt i) = u at same gave
  rw [gave] at r
  refine (same.law law).update (.inl (same.serves serves)) (.inr ⟨?_, r.engine, r.offAir.notPlaying, r.offAir.notStopping⟩)
    (fun f other => ?_) fun j other => ?_
  · have idle : t.engines[e] = Engine.idle (u.engines[e].epoch + 1#8) := by
      rw [r.engines]; exact u.setEngine_get_self e _
    rw [idle]
    exact ⟨rfl, rfl⟩
  · rw [r.engines]; exact u.setEngine_get_other e f _ other
  · exact (r.others j other).trans (u.setSlot_get_other i j _ other)

/-- A GRANTED announcement starts on an unbound engine (R42, R57). -/
theorem State.BindingLaw.startOn {s : State} (law : s.BindingLaw) {i : SlotId} {e : EngineId}
    (granted : s.slots[i].state = .granted) (free : s.engines[e].binding = none) : (s.startOn i e).BindingLaw := by
  obtain ⟨zones, stages, eq, -⟩ := s.startOn_eq i e
  rw [bindEngine_record, bindEngine_engine] at eq
  rw [eq]
  have silent := law.silent (i := i) (by rw [granted]; decide) (by rw [granted]; decide)
  refine law.update (e := e) (i := i) (.inr ⟨law.unbound free, silent⟩) (.inl ?_)
    (fun f other => s.setEngine_get_other e f _ other) fun j other => s.setSlot_get_other i j _ other
  constructor
  · simp [State.handleAt, Engine.bound]
  · simp
  · simp [Engine.bound]
  · simp
  · simp [Engine.bound]

/-! ### One frame of an engine and its announcement -/

/-- An engine and its announcement as the law of bindings asks of a pair: the engine is not IDLE, the announcement
PLAYING or STOPPING, and the engine FADING exactly for the latter (R42, R56). -/
structure Bound.Engaged (b : Bound) : Prop where
  busy : b.eng.state ≠ .idle
  going : b.slot.state = .playing ∨ b.slot.state = .stopping
  fading : b.eng.state = .fading ↔ b.slot.state = .stopping

/-- From b to c the engine stays bound as it was, and the pair stays engaged. -/
structure Bound.Attends (b c : Bound) : Prop where
  binding : c.eng.binding = b.eng.binding
  engaged : b.Engaged → c.Engaged

theorem Bound.Attends.trans {b c d : Bound} (h : b.Attends c) (k : c.Attends d) : b.Attends d :=
  ⟨k.binding.trans h.binding, k.engaged ∘ h.engaged⟩

/-- A step that leaves binding and both states. -/
theorem Bound.Attends.of_eq {b c : Bound} (binding : c.eng.binding = b.eng.binding) (state : c.eng.state = b.eng.state)
    (slot : c.slot.state = b.slot.state) : b.Attends c := by
  refine ⟨binding, fun ⟨busy, going, fading⟩ => ⟨?_, ?_, ?_⟩⟩
  · rw [state]; exact busy
  · rw [slot]; exact going
  · rw [state, slot]; exact fading

theorem Bound.Attends.refl (b : Bound) : b.Attends b := .of_eq rfl rfl rfl

/-- An engine that is neither IDLE nor FADING may go over to another such state (R69, R78). -/
theorem Bound.Attends.of_state {b c : Bound} (binding : c.eng.binding = b.eng.binding) (slot : c.slot.state = b.slot.state)
    (was : b.eng.state ≠ .fading) (busy : c.eng.state ≠ .idle) (still : c.eng.state ≠ .fading) : b.Attends c := by
  refine ⟨binding, fun engaged => ⟨busy, by rw [slot]; exact engaged.going, iff_of_false still ?_⟩⟩
  rw [slot]
  exact mt engaged.fading.mpr was

theorem Bound.considerRequest_attends (b : Bound) (d : Directory) : b.Attends (b.considerRequest d) := by
  obtain ⟨r, eq⟩ := b.considerRequest_frame d
  rw [eq]
  exact .of_eq rfl rfl rfl

theorem Bound.retryFetch_attends (b : Bound) : b.Attends b.retryFetch := by
  unfold Bound.retryFetch
  split <;> exact .of_eq rfl rfl rfl

/-- The arrival of a burst changes the fetch side alone (R63, R66). -/
theorem Bound.takeArrival_attends (b : Bound) (d : Directory) (data : List Byte) : b.Attends (b.takeArrival d data) := by
  unfold Bound.takeArrival
  split
  · refine .trans ?_ (Bound.considerRequest_attends _ d)
    split
    · unfold Bound.takeHeader
      split <;> exact .of_eq rfl rfl rfl
    · simp only [Bound.takeData]
      split <;> exact .of_eq rfl rfl rfl
    · exact .of_eq rfl rfl rfl
  · exact .refl b

/-- A step of the play side keeps the pair engaged. -/
abbrev Play.Attends (p q : Play) : Prop := p.bound.Attends q.bound

theorem Play.writePosition_attends (p : Play) : p.Attends p.writePosition := by
  unfold Play.writePosition
  split <;> exact .of_eq rfl rfl rfl

/-- A play side that moved tries its fetch side again and writes its position (R64, R70). -/
theorem Play.Attends.retried {p q : Play} (h : p.Attends q) :
    p.Attends ({ q with bound := q.bound.retryFetch } : Play).writePosition :=
  (h.trans (Bound.retryFetch_attends q.bound)).trans
    (Play.writePosition_attends { q with bound := q.bound.retryFetch })

theorem Play.leave_attends (p : Play) : p.Attends p.leave := by
  simp only [Play.leave]
  split
  · exact .retried (.of_eq rfl rfl rfl)
  · split
    · exact .retried (.of_eq rfl rfl rfl)
    · exact .of_eq rfl rfl rfl

/-- The second fault aborts a PLAYING announcement, whose engine is FADING from then on (R6, R75, R79). -/
theorem Play.countFault_attends (p : Play) (kind : FaultKind) : p.Attends (p.countFault kind) := by
  have halted (play : PlayCursor) (a : Slot) (state : a.state = p.slot.state) :
      p.bound.Attends { eng := { p.eng.withdrawUngranted with play := play }, slot := a } := by
    rw [Engine.withdrawUngranted_frame]
    exact .of_eq rfl rfl state
  unfold Play.countFault
  split
  · exact .refl _
  · simp only
    split
    · split
      · refine ⟨?_, fun _ => ⟨nofun, .inr rfl, iff_of_true rfl rfl⟩⟩
        exact (halted p.eng.play p.slot rfl).binding
      · exact halted _ _ rfl
      · exact halted _ _ rfl
    · exact .of_eq rfl rfl rfl

/-- A stall that ends, or begins, moves no engine to or from FADING (R78, R80). -/
theorem Play.resume_attends (p : Play) : p.Attends p.resume := by
  by_cases stalled : p.eng.state = .stalled
  · refine .of_state rfl rfl ?_ ?_ ?_ <;> simp [Play.resume, Play.withEng, stalled, show p.bound.eng.state = _ from stalled]
  · exact .of_eq rfl (if_neg stalled) rfl

theorem Play.stall_attends (p : Play) : p.Attends p.stall := by
  have stalled (a : Slot) (state : a.state = p.slot.state) : p.bound.Attends
      { eng := { p.eng with state := if p.eng.state = .fading then .fading else .stalled, underrun := true }, slot := a } := by
    by_cases fading : p.eng.state = .fading
    · exact .of_eq rfl ((if_pos fading).trans fading.symm) state
    · exact .of_state rfl state fading (by simp [fading]) (by simp [fading])
  simp only [Play.stall]
  split
  · exact stalled _ rfl
  · exact stalled _ rfl

theorem Play.formatFault_attends (p : Play) (clipLength : Nat) : p.Attends (p.formatFault clipLength) := by
  simp only [Play.formatFault]
  refine .trans ?_ (Play.countFault_attends _ _)
  split <;> exact .of_eq rfl rfl rfl

theorem Play.enterClip_attends (p : Play) : p.Attends p.enterClip := by
  unfold Play.enterClip
  split <;> exact .of_eq rfl rfl rfl

theorem Play.clipFrame_attends (p : Play) (entry : ClipEntry) (trim : Option Nat) :
    p.Attends (p.clipFrame entry trim).play := by
  have resumed (x : Engine) (binding : x.binding = p.eng.binding) (state : x.state = p.eng.state) :
      p.Attends (p.withEng x).resume :=
    .trans (c := (p.withEng x).bound) (.of_eq binding state rfl) (Play.resume_attends _)
  simp only [Play.clipFrame]
  split
  · exact .of_eq rfl rfl rfl
  · split
    · exact .of_eq rfl rfl rfl
    · split
      · exact p.stall_attends
      · exact resumed _ rfl rfl
      · exact resumed _ rfl rfl

/-- The play side's way through one frame (R68). -/
theorem playLoop_attends (d : Directory) : ∀ (fuel : Nat) (p : Play), p.Attends (playLoop d fuel p).1
  | 0, p => .refl _
  | fuel + 1, p => by
    have go (q : Play) (h : p.Attends q) : p.Attends (playLoop d fuel q).1 := h.trans (playLoop_attends d fuel q)
    have leave (q : Play) (h : p.Attends q) : p.Attends (playLoop d fuel q.leave).1 := go _ (h.trans q.leave_attends)
    unfold playLoop
    split
    · exact .refl _
    · exact .refl _
    · split
      · exact go _ (.of_eq rfl rfl rfl)
      · exact .of_eq rfl rfl rfl
    · split
      · exact .refl _
      · refine leave _ ?_
        unfold Play.passMark
        split <;> exact .refl _
      · split
        · exact leave _ (.refl _)
        · split <;> exact .of_eq rfl rfl rfl
      · next n trim fault _ =>
        simp only
        split
        · have counted : p.Attends (p.enterClip.resume.countFault .headerMismatch) :=
            (p.enterClip_attends.trans (Play.resume_attends _)).trans (Play.countFault_attends _ _)
          split
          · exact counted
          · exact leave _ counted
        · have clip := p.enterClip_attends.trans (Play.clipFrame_attends _ (d.entry n) trim)
          split
          · next h => rw [h] at clip; exact clip
          · next h => rw [h] at clip; exact leave _ clip
          · next h =>
            rw [h] at clip
            have counted := clip.trans (Play.formatFault_attends _ (d.entry n).length)
            split
            · exact counted
            · exact leave _ counted

/-- One frame of a bound engine (R56). -/
theorem Play.frame_attends (d : Directory) (p : Play) : p.Attends (p.frame d).1 := by
  have run (q : Play) (h : p.Attends q) : p.Attends (q.run d).1 := h.trans (playLoop_attends d _ q)
  have fade (q : Play) (h : p.Attends q) : p.Attends (q.withEng q.eng.advanceFade) := by
    rw [Engine.advanceFade_frame]
    exact h.trans (.of_eq rfl rfl rfl)
  unfold Play.frame
  split
  · exact .refl _
  · next priming =>
    replace priming : p.bound.eng.state = .priming := priming
    split
    · exact run _ (.of_state rfl rfl (by rw [priming]; decide) nofun nofun)
    · exact .refl _
  · exact run p (.refl _)
  · exact run p (.refl _)
  · split
    · exact .refl _
    · split
      · exact fade p (.refl _)
      · exact fade _ (run _ (.of_eq rfl rfl rfl))

/-- A frame keeps every pair, every unbound engine and every silent announcement (R56). -/
theorem State.BindingLaw.takeFrame {s : State} (law : s.BindingLaw) : s.takeFrame.BindingLaw := by
  refine law.of_pairs (fun e i serves => ?_) (fun e unbound => ?_) fun i silent => ?_
  · have played := s.takeFrame_played i
    have frame := State.engineFrame_eq serves.binding
    have attends := (Play.frame_attends s.dir { bound := { eng := s.engines[e], slot := s.slots[i] }
                                                handle := s.handleAt i, events := [], pass := false }).trans
      (Bound.considerRequest_attends _ s.dir)
    have slot := State.takeFrame_slot law serves.binding (congrArg FrameOut.slot frame)
    have eng := (s.takeFrame_engine e).trans (congrArg FrameOut.eng frame)
    simp only [handleSlot_handleAt] at slot eng
    obtain ⟨busy, going, fading⟩ := attends.engaged ⟨serves.busy, serves.going, serves.fading⟩
    refine ⟨?_, ?_, ?_, ?_, ?_⟩
    · have handle : s.takeFrame.handleAt i = s.handleAt i := by simp only [State.handleAt, played.generation]
      rw [eng, handle]
      exact attends.binding.trans serves.binding
    · exact (congrArg Slot.engine played.standing :).trans serves.engine
    · rw [eng]; exact busy
    · rw [slot]; exact going
    · rw [eng, slot]; exact fading
  · have b := unbound.binding
    rw [State.takeFrame_engine]
    simp only [State.engineFrame, b]
    exact unbound
  · have alone : s.takeFrame.slots[i] = s.slots[i] := by
      refine State.takeFrame_slot_unbound fun e h bound at_ => ?_
      obtain unbound | ⟨j, serves⟩ := (s.bindingLaw_iff.mp law).1 e
      · rw [unbound.binding] at bound; cases bound
      · rw [serves.binding] at bound
        obtain rfl := Option.some.inj bound
        rw [handleSlot_handleAt] at at_
        subst at_
        exact serves.going.elim silent.notPlaying silent.notStopping
    exact alone ▸ silent

end Sys2Proof.Machine

/-! ## The laws of stages and bindings under every step -/

namespace Sys2Proof.Machine

/-! ### Steps that keep both laws -/

/-- A step keeps the law of the zone stages, and the law of bindings. -/
structure State.Upholds (s t : State) : Prop where
  stages : s.StageLaw → t.StageLaw
  bindings : s.BindingLaw → t.BindingLaw

theorem State.Upholds.refl (s : State) : s.Upholds s := ⟨id, id⟩

theorem State.Upholds.trans {s t u : State} (h : s.Upholds t) (k : t.Upholds u) : s.Upholds u :=
  ⟨k.stages ∘ h.stages, k.bindings ∘ h.bindings⟩

/-- What is kept from t on is kept from s on, where the step from s to t keeps it. -/
theorem State.Upholds.after {s t u : State} (k : t.Upholds u) (h : s.Upholds t) : s.Upholds u := h.trans k

/-- A step apart from announcements, zones, stages and engines. -/
theorem State.Upholds.of_frame {s t : State} (slots : t.slots = s.slots) (zones : t.zones = s.zones)
    (stages : t.stages = s.stages) (engines : t.engines = s.engines) : s.Upholds t :=
  ⟨fun law => law.of_frame zones stages, (State.SameBindings.of_frame slots engines).law⟩

/-- A step on zones and stages alone. -/
theorem State.Upholds.of_stages {s t : State} (slots : t.slots = s.slots) (engines : t.engines = s.engines)
    (law : s.StageLaw → t.StageLaw) : s.Upholds t :=
  ⟨law, (State.SameBindings.of_frame slots engines).law⟩

/-- A step apart from zones and stages. -/
theorem State.Upholds.of_bindings {s t : State} (zones : t.zones = s.zones) (stages : t.stages = s.stages)
    (law : s.BindingLaw → t.BindingLaw) : s.Upholds t := ⟨fun h => h.of_frame zones stages, law⟩

/-- A step on announcements and engines that leaves the bindings. -/
theorem State.SameBindings.upholds {s t : State} (h : s.SameBindings t) (zones : t.zones = s.zones)
    (stages : t.stages = s.stages) : s.Upholds t := .of_bindings zones stages h.law

theorem State.Upholds.requestPass {s t : State} (h : s.Upholds t) : s.Upholds t.requestPass :=
  h.trans (.of_frame rfl rfl rfl rfl)

theorem State.Upholds.setSlot {s t : State} (h : s.Upholds t) {i : SlotId} {x : Slot}
    (same : t.slots[i].SameBinding x) : s.Upholds (t.setSlot i x) :=
  h.trans (((State.SameBindings.refl t).setSlot same).upholds rfl rfl)

/-- An engine changes without its binding and its state. -/
theorem State.Upholds.setEngine {s : State} {e : EngineId} {x : Engine} (same : s.engines[e].SameBinding x) :
    s.Upholds (s.setEngine e x) :=
  ((State.SameBindings.refl s).setEngine same.binding same.state).upholds rfl rfl

theorem State.Upholds.claimLoss {s t : State} (h : s.Upholds t) (i : SlotId) : s.Upholds (t.claimLoss i) :=
  h.trans ⟨fun law => law.claimLoss i, ((State.SameBindings.refl t).claimLoss i).law⟩

theorem State.Upholds.startCheck {s t : State} (h : s.Upholds t) (i : SlotId) : s.Upholds (t.startCheck i) := by
  refine h.trans (((State.SameBindings.refl t).startCheck i).upholds ?_ ?_) <;> rw [State.startCheck_eq] <;> rfl

/-- A PLAYING announcement becomes STOPPING (R6, R79). -/
theorem State.Upholds.enterStopping {s t : State} (h : s.Upholds t) {i : SlotId} (playing : t.slots[i].state = .playing)
    (why : Stopping) : s.Upholds (t.enterStopping i why) :=
  h.trans ⟨fun law => law.enterStopping i why, fun law => law.enterStopping playing why⟩

/-- A PLAYING or STOPPING announcement gives up zones and engine, and is freed or requeued (R47, R50). -/
theorem State.Upholds.retired {s t : State} {i : SlotId} (going : s.slots[i].state = .playing ∨ s.slots[i].state = .stopping)
    (r : (s.giveUp i).Retires t i) : s.Upholds t := ⟨fun law => law.retired r, fun law => law.retired going r⟩

/-- An announcement without engine is freed (R28). -/
theorem State.Upholds.freeSlot {s : State} {i : SlotId} (notPlaying : s.slots[i].state ≠ .playing)
    (notStopping : s.slots[i].state ≠ .stopping) (o : AnnOutcome) : s.Upholds (s.freeSlot i o) := by
  refine .of_bindings rfl rfl fun law => ?_
  have r := s.freeSlot_retires i o
  exact law.update_silent (law.silent notPlaying notStopping) ⟨r.engine, r.offAir.notPlaying, r.offAir.notStopping⟩
    r.engines r.others

/-- An announcement's claims are withdrawn and it is freed (R24, R44). -/
theorem State.Upholds.withdrawn {s : State} {i : SlotId} (notPlaying : s.slots[i].state ≠ .playing)
    (notStopping : s.slots[i].state ≠ .stopping) (o : AnnOutcome) :
    s.Upholds ((s.withdrawClaims (s.handleAt i)).freeSlot i o) := by
  have withdrawn : s.Upholds (s.withdrawClaims (s.handleAt i)) :=
    ⟨fun law => law.withdrawClaims _, ((State.SameBindings.refl s).withdrawClaims _).law⟩
  refine withdrawn.trans (.freeSlot ?_ ?_ o) <;> rw [(s.withdrawClaims_claims _).1] <;> assumption

/-! ### The commands of the Announcement Table -/

/-- Whatever the parameters and the state, the body of a command keeps both laws. -/
def Body.Upholds (body : Body) : Prop := ∀ (p : Params) (s : State), s.Upholds (body p s).1

theorem annOpenBody_upholds : annOpenBody.Upholds := by
  intro p s
  unfold annOpenBody
  split
  · exact .refl s
  · next policy _ =>
    split
    · exact .refl s
    · next i found =>
      have free := State.lowestFree_free found
      refine .of_bindings rfl rfl fun law => ?_
      refine law.update_silent (i := i) (law.silent (by rw [free]; decide) (by rw [free]; decide)) ?_ rfl
        fun j other => s.setSlot_get_other i j _ other
      simp only [State.setSlot_get_self]
      constructor <;> simp [Slot.opened, Slot.free]

theorem annAppendBody_upholds : annAppendBody.Upholds := by
  intro p s
  unfold annAppendBody
  split
  · exact .refl s
  · next i _ =>
    simp only
    split
    · exact .refl s
    · split
      · exact .refl s
      · split
        · exact .refl s
        · split
          · exact .refl s
          · next g _ _ _ =>
            have appended : s.slots[i].SameBinding { s.slots[i] with segments := s.slots[i].segments ++ [g] } :=
              .of_eq rfl rfl rfl
            exact ((State.Upholds.refl s).setSlot appended).trans (.of_frame rfl rfl rfl rfl)

theorem annSubmitBody_upholds : annSubmitBody.Upholds := by
  intro p s
  unfold annSubmitBody
  split
  · exact .refl s
  · next i _ =>
    simp only
    split
    · exact .refl s
    · next building =>
      rw [not_not] at building
      split
      · exact .refl s
      · split
        · exact .refl s
        · split
          · exact .refl s
          · split
            · exact .refl s
            · have queued : s.slots[i].SameBinding
                  { s.slots[i] with state := .queued, deadline := armedDeadline s.slots[i].deadlineSetting } :=
                ⟨rfl, rfl, by rw [building]; simp, by rw [building]; simp⟩
              exact ((State.Upholds.refl s).setSlot queued).trans (.of_frame rfl rfl rfl rfl)

theorem annCancelBody_upholds : annCancelBody.Upholds := by
  intro p s
  unfold annCancelBody
  split
  · exact .refl s
  · next i _ =>
    split
    · exact .refl s
    · next building => exact .freeSlot (by rw [building]; decide) (by rw [building]; decide) _
    · next queued => exact (State.Upholds.freeSlot (by rw [queued]; decide) (by rw [queued]; decide) _).requestPass
    · next granted =>
      exact (State.Upholds.withdrawn (by rw [granted]; decide) (by rw [granted]; decide) _).requestPass
    · next playing => exact ((State.Upholds.refl s).enterStopping playing _).requestPass
    · unfold cancelStopping
      split
      · exact (State.Upholds.refl s).setSlot (.of_eq rfl rfl rfl)
      · exact .refl s

theorem annStatusBody_upholds : annStatusBody.Upholds := by
  intro p s
  unfold annStatusBody
  split <;> exact .refl s

/-! ### ZONE_SET -/

theorem State.ownerLosesZone_upholds (s : State) (i : SlotId) (z : Zone) : s.Upholds (s.ownerLosesZone i z) := by
  refine ⟨fun law => law.ownerLosesZone i z, fun law => ?_⟩
  have taken : s.SameBindings (s.zoneTaken i z) :=
    ((State.SameBindings.refl s).trans (.of_frame rfl rfl : s.SameBindings (s.setZone z _))).setSlot (.of_eq rfl rfl rfl)
  rcases s.ownerLosesZone_cases i z with eq | ⟨going, r⟩
  · rw [eq]; exact taken.law law
  · exact (taken.law law).retired going r

theorem State.disableInScheduler_upholds (s : State) (z : Zone) : s.Upholds (s.disableInScheduler z) := by
  have owner (t : State) (h : s.Upholds t) : s.Upholds
      (match t.zones[z].owner with
       | some h => t.ownerLosesZone (handleSlot h) z
       | none => t) := by
    split
    · exact h.trans (State.ownerLosesZone_upholds _ _ _)
    · exact h
  unfold State.disableInScheduler
  simp only
  apply owner
  split
  · exact (State.Upholds.refl s).claimLoss _
  · exact .refl s

theorem zoneSetBody_upholds : zoneSetBody.Upholds := by
  intro p s
  have enabled (t : State) (z : Zone) (enable : Bool) : t.Upholds (t.setEnable z enable) := by
    refine ⟨fun law => law.setEnable z enable, fun law => ?_⟩
    unfold State.setEnable
    split
    · exact law
    · split
      · exact (State.SameBindings.of_frame rfl rfl).law law
      · have recorded : (t.setStage z { t.stages[z] with enabled := false }).BindingLaw :=
          (State.SameBindings.of_frame rfl rfl).law law
        have done := (State.disableInScheduler_upholds _ z).bindings recorded
        simp only [State.disableZone]
        generalize State.disableInScheduler _ z = u at done ⊢
        exact (State.SameBindings.of_frame rfl rfl).law done
  refine ⟨fun law => zoneSetBody_stageLaw p law, fun law => ?_⟩
  unfold zoneSetBody
  split
  · split
    · exact law
    · refine (enabled _ _ _).bindings ?_
      unfold State.setIdleHold
      split
      · exact (State.SameBindings.of_frame rfl rfl).law law
      · exact (State.SameBindings.settleIdle (.of_frame rfl rfl) _).law law
  · exact law

/-! ### The other commands -/

theorem dirLoadBody_upholds : dirLoadBody.Upholds := by
  intro p s
  unfold dirLoadBody
  split
  · exact .refl s
  · split
    · exact .refl s
    · split
      · exact .refl s
      · exact .of_frame rfl rfl rfl rfl

theorem flashConfigBody_upholds : flashConfigBody.Upholds := by
  intro p s
  unfold flashConfigBody
  split
  · exact .refl s
  · split <;> exact .of_frame rfl rfl rfl rfl

theorem flashClaimBody_upholds : flashClaimBody.Upholds := by
  intro p s
  unfold flashClaimBody
  split
  · exact .refl s
  · split
    · exact .refl s
    · split <;> exact .of_frame rfl rfl rfl rfl

theorem flashReleaseBody_upholds : flashReleaseBody.Upholds := by
  intro p s
  unfold flashReleaseBody
  split
  · exact .refl s
  · exact .of_frame rfl rfl rfl rfl
  · split <;> exact .of_frame rfl rfl rfl rfl

/-- A soft reset leaves every zone without owner and claimant, every announcement FREE and every engine unbound
(R31, R54, R84, R139). -/
theorem softResetBody_upholds : softResetBody.Upholds := by
  intro p s
  obtain ⟨slots, poolFree, order, eq⟩ := State.softReset_eq s
  rw [softResetBody]
  refine ⟨fun law => (State.stageLaw_iff _).mpr fun z => ?_,
    fun law => (State.bindingLaw_iff _).mpr ⟨fun e => .inl ?_, fun i => .inl ?_⟩⟩
  · rw [State.softReset_stage, State.softReset_zone]
    exact (law.sound z).softReset
  · rw [eq]
    simp only [Fin.getElem_fin, Vector.getElem_ofFn]
    exact ⟨rfl, rfl⟩
  · rw [State.softReset_slot]
    split
    · next free => exact law.silent (by rw [free]; decide) (by rw [free]; decide)
    · constructor <;> simp [Slot.free]

/-! ### The mailbox and the host's bytes -/

theorem State.cmdWrite_upholds {body : Body} (upholds : body.Upholds) (s : State) (code : Byte) :
    s.Upholds (s.cmdWrite code body) := by
  unfold State.cmdWrite
  split
  · exact .of_frame rfl rfl rfl rfl
  · have latched : s.Upholds (s.latchCommand code) := .of_frame rfl rfl rfl rfl
    have done := latched.trans (upholds (s.latchCommand code).mailbox.latched (s.latchCommand code))
    simp only
    split
    · exact done.trans (.of_frame rfl rfl rfl rfl)
    · exact done

/-- A data byte of the host keeps the laws where its register's owning block does (R172). -/
theorem State.Upholds.hostWrite {s : State} {a : RegAddr} {act : State → State} (h : s.Upholds (act s)) :
    s.Upholds (s.hostWrite a act) := by
  rcases s.hostWrite_cases a act with eq | ⟨-, eq⟩ | ⟨-, -, eq⟩ <;> rw [eq]
  · exact .refl s
  · exact h.trans (.of_frame rfl rfl rfl rfl)
  · exact .of_frame rfl rfl rfl rfl

theorem State.hostCommand_upholds {body : Body} (upholds : body.Upholds) (s : State) (code : Byte) :
    s.Upholds (s.hostCommand code body) := .hostWrite (State.cmdWrite_upholds upholds s code)

theorem badCommandBody_upholds : badCommandBody.Upholds := fun _ s => .refl s

theorem commandTable_upholds : ∀ row ∈ commandTable, row.2.Upholds := by
  simp only [commandTable, List.forall_mem_cons]
  exact ⟨annOpenBody_upholds, annAppendBody_upholds, annSubmitBody_upholds, annCancelBody_upholds,
    annStatusBody_upholds, zoneSetBody_upholds, dirLoadBody_upholds, flashConfigBody_upholds, flashClaimBody_upholds,
    flashReleaseBody_upholds, softResetBody_upholds, nofun⟩

theorem bodyOfCode_upholds (code : Byte) : (bodyOfCode code).Upholds := by
  unfold bodyOfCode
  cases found : commandTable.lookup code with
  | none => exact badCommandBody_upholds
  | some body =>
    obtain ⟨before, after, eq, -⟩ := List.lookup_eq_some_iff.mp found
    exact commandTable_upholds (code, body) (by simp [eq])

theorem State.writeRegister_upholds (s : State) (a : RegAddr) (v : Byte) : s.Upholds (s.writeRegister a v) := by
  unfold State.writeRegister
  split
  · exact .of_frame rfl rfl rfl rfl
  · split
    · exact State.cmdWrite_upholds (bodyOfCode_upholds v) s v
    · repeat' split
      all_goals exact .of_frame rfl rfl rfl rfl

/-! ### The scheduling pass -/

/-- A zone gets a claimant, and its stage is told (R37, R124). -/
theorem Pass.claimZone_upholds (p : Pass) (h : Handle) (z : Zone) : p.state.Upholds (p.claimZone h z).state := by
  unfold Pass.claimZone
  split
  · exact .refl _
  · refine .of_stages rfl rfl fun law => law.update (z := z) ?_ fun w other => ⟨?_, ?_⟩
    · simpa using (law.sound z).claimantArrives h
    · exact State.setStage_get_other _ z w _ other
    · exact State.setZone_get_other _ z w _ other

theorem State.Upholds.preemptOwner {s t : State} (h : s.Upholds t) (a : Handle) (z : Zone) :
    s.Upholds (t.preemptOwner a z) := by
  unfold State.preemptOwner
  split
  · exact h
  · split
    · next playing => exact h.enterStopping playing _
    · exact h

theorem State.Upholds.displace {s t : State} (h : s.Upholds t) (i : SlotId) (zs : ZoneSet) (j : SlotId) :
    s.Upholds (t.displace i zs j) := by
  unfold State.displace
  split
  · exact h.claimLoss j
  · exact h

theorem State.Upholds.loseIfGranted {s t : State} (h : s.Upholds t) (i : SlotId) : s.Upholds (t.loseIfGranted i) := by
  unfold State.loseIfGranted
  split
  · exact h.claimLoss i
  · exact h

/-- A candidate that is granted stays without engine (R37). -/
theorem Pass.grant_upholds {p : Pass} {i : SlotId} (was : p.state.slots[i].state.candidate = true) (zs : ZoneSet) :
    p.state.Upholds (p.grant i zs).state := by
  have granted : p.state.slots[i].SameBinding { p.state.slots[i] with state := .granted, effZones := zs } := by
    have still : p.state.slots[i].state ≠ .playing ∧ p.state.slots[i].state ≠ .stopping := by
      rcases (AnnState.candidate_iff _).mp was with is | is <;> rw [is] <;> decide
    exact ⟨rfl, rfl, iff_of_false nofun still.1, iff_of_false nofun still.2⟩
  simp only [Pass.grant]
  refine List.foldlRecOn _ _ (List.foldlRecOn _ _ ?_ fun t ht z _ => ht.preemptOwner _ z) fun t ht j _ =>
    ht.displace i zs j
  exact List.foldlRecOn (motive := fun q : Pass => p.state.Upholds q.state) _ _ (.setSlot (.refl _) granted)
    fun q hq z _ => hq.trans (q.claimZone_upholds _ z)

theorem Pass.visit_upholds {p : Pass} {i : SlotId} (was : p.state.slots[i].state.candidate = true) :
    p.state.Upholds (p.visit i).state := by
  simp only [Pass.visit]
  split
  · exact (State.Upholds.refl _).loseIfGranted i
  · split
    · exact Pass.grant_upholds was _
    · exact (State.Upholds.refl _).loseIfGranted i

theorem State.takePass_upholds (s : State) : s.Upholds s.takePass := by
  unfold State.takePass
  split
  · have visited : s.Upholds (s.candidates.foldl Pass.visit
        { state := { s with passPending := false }, reserved := 0#4, ready := [] }).state := by
      refine And.right (List.foldlRecOn (motive := fun p : Pass => s.InPass p.state ∧ s.Upholds p.state) _ _ ⟨?_, ?_⟩ ?_)
      · exact State.Quiet.inPass_of_slots (.of_frame rfl rfl rfl rfl rfl rfl) rfl
      · exact .of_frame rfl rfl rfl rfl
      · rintro p ⟨hp, hl⟩ i hi
        have candidate := hp.candidate i (State.candidate_of_mem hi)
        exact ⟨hp.trans (Pass.visit_inPass candidate), hl.trans (Pass.visit_upholds candidate)⟩
    simp only
    generalize s.candidates.foldl Pass.visit _ = done at visited ⊢
    have checked : s.Upholds (allSlots.foldl State.startCheck done.state) :=
      List.foldlRecOn _ _ visited fun u hu i _ => hu.startCheck i
    generalize allSlots.foldl State.startCheck done.state = u at checked ⊢
    exact checked.trans (.of_frame rfl rfl rfl rfl)
  · exact .refl s

/-! ### Starts, expiries, fade ends and completions -/

/-- The zones of an announcement that starts are READY without zone fade, and stay so under their owner (R41, R42). -/
theorem State.StageLaw.startOn {s : State} (law : s.StageLaw) {i : SlotId} (ready : s.readyToStart i = true)
    (e : EngineId) : (s.startOn i e).StageLaw := by
  obtain ⟨-, zonesReady⟩ := (s.readyToStart_iff i).mp ready
  obtain ⟨zones, stages, eq, at_⟩ := s.startOn_eq i e
  rw [eq]
  refine (State.stageLaw_iff _).mpr fun z => ?_
  simp only [(at_ z).1, (at_ z).2]
  split
  · next mem =>
    obtain ⟨-, bias, fade⟩ := zonesReady z mem
    exact { law.sound z with owned := fun _ => ⟨bias, fade⟩, timer := nofun }
  · exact law.sound z

theorem State.takeStart_upholds (s : State) (i : SlotId) : s.Upholds (s.takeStart i) := by
  have dropped : s.Upholds (s.setSlot i { s.slots[i] with startDue := false }) :=
    (State.Upholds.refl s).setSlot (.of_eq rfl rfl rfl)
  unfold State.takeStart
  split
  · simp only
    split
    · next ready =>
      split
      · next e found =>
        have free : s.engines[e].binding = none := by simpa using List.find?_some found
        exact ⟨fun law => law.startOn ready e, fun law => law.startOn ((s.readyToStart_iff i).mp ready).1 free⟩
      · exact dropped
    · exact dropped
  · exact .refl s

theorem State.takeExpiry_upholds (s : State) (i : SlotId) : s.Upholds (s.takeExpiry i) := by
  unfold State.takeExpiry
  split
  · next due =>
    have candidate := (AnnState.candidate_iff _).mp (Bool.and_eq_true_iff.mp due).1
    have playing : s.slots[i].state ≠ .playing := by rcases candidate with is | is <;> rw [is] <;> decide
    have stopping : s.slots[i].state ≠ .stopping := by rcases candidate with is | is <;> rw [is] <;> decide
    exact (State.Upholds.withdrawn playing stopping _).requestPass
  · exact .refl s

theorem State.takeFadeEnd_upholds (s : State) (e : EngineId) : s.Upholds (s.takeFadeEnd e) := by
  unfold State.takeFadeEnd
  split
  · exact .refl s
  · split
    · next stopping => exact .retired (.inr stopping.1) (State.endFade_retires s _)
    · exact .setEngine ⟨rfl, rfl⟩

theorem State.takeCompletion_upholds (s : State) (e : EngineId) : s.Upholds (s.takeCompletion e) := by
  unfold State.takeCompletion
  split
  · exact .refl s
  · split
    · next playing => exact .retired (.inl playing.1) (State.freeSlot_retires _ _ _).requestPass
    · exact .setEngine ⟨rfl, rfl⟩

/-! ### Zone stages and ticks -/

/-- The bias of a zone without owner and zone fade leaves READY, or moves where it is not READY, to a state that its
level allows (R123, R125). -/
theorem Stage.Sound.withBias {g : Stage} {r : ZoneRec} (h : g.Sound r) (b : Bias) (owner : r.owner = none)
    (fade : g.fade = none) (off : b = .off → g.level = 0) (ready : b = .ready → g.level = 1024) :
    ({ g with bias := b, idleTimer := none } : Stage).Sound r :=
  { h with off := off, ready := ready, owned := by simp [owner], fading := by simp [fade], timer := nofun }

/-- A stage that is not READY has no idle timer to stop. -/
theorem Stage.Sound.withBias_busy {g : Stage} {r : ZoneRec} (h : g.Sound r) (b : Bias) (busy : g.bias ≠ .ready)
    (off : b = .off → g.level = 0) (ready : b = .ready → g.level = 1024) : ({ g with bias := b } : Stage).Sound r := by
  have := h.withBias b (h.unowned (.inl busy)) (h.unfaded busy) off ready
  rwa [← h.stopped (.inl busy)] at this

theorem State.takeIdleExpiry_upholds (s : State) (z : Zone) : s.Upholds (s.takeIdleExpiry z) := by
  unfold State.takeIdleExpiry
  split
  · next due =>
    refine .of_stages rfl rfl fun law => law.setStage ?_
    obtain ⟨-, -, owner, -, fade⟩ := (law.sound z).timer 0 due
    exact (law.sound z).withBias .rampDown owner fade nofun nofun
  · exact .refl s

theorem State.StageLaw.takeZoneFadeEnd {s : State} (law : s.StageLaw) (z : Zone) : (s.takeZoneFadeEnd z).StageLaw := by
  unfold State.takeZoneFadeEnd
  split
  · exact law
  · next f fade =>
    split
    · exact law
    · have sound := law.sound z
      have faded : s.stages[z].fade ≠ none := by rw [fade]; nofun
      have owner := sound.unowned (.inr faded)
      have ended : ({ s.stages[z] with fade := none } : Stage).Sound s.zones[z] :=
        { sound with
          owned := fun some_ => by rw [owner] at some_; cases some_
          fading := nofun
          timer := fun n running => nomatch (sound.stopped (.inr (.inr (.inr faded)))).symm.trans running }
      have law' := law.setStage ended
      have down := law'.setStage ((law'.sound z).rampDownNow owner (by rw [State.setStage_get_self]))
      simp only
      split
      · exact law'.startCheckZone z
      · unfold State.afterZoneFade
        split
        · exact law'.settleIdle z
        · exact down
        · exact down

theorem State.takeZoneFadeEnd_upholds (s : State) (z : Zone) : s.Upholds (s.takeZoneFadeEnd z) := by
  refine ⟨fun law => law.takeZoneFadeEnd z, ?_⟩
  have ended : s.SameBindings (s.setStage z { s.stages[z] with fade := none }) := .of_frame rfl rfl
  unfold State.takeZoneFadeEnd
  split
  · exact id
  · split
    · exact id
    · simp only
      split
      · exact (ended.startCheckZone z).law
      · unfold State.afterZoneFade
        split
        · exact (ended.settleIdle z).law
        · exact (State.SameBindings.of_frame rfl rfl).law
        · exact (State.SameBindings.of_frame rfl rfl).law

theorem State.takeBiasReady_upholds (s : State) (z : Zone) : s.Upholds (s.takeBiasReady z) := by
  unfold State.takeBiasReady
  split
  · next done =>
    have ready : s.SameBindings ((s.setStage z { s.stages[z] with bias := .ready }).offer (EventRecord.zone z .ready)) :=
      .of_frame rfl rfl
    have law' (law : s.StageLaw) :
        ((s.setStage z { s.stages[z] with bias := .ready }).offer (EventRecord.zone z .ready)).StageLaw := by
      have sound := law.sound z
      exact (law.setStage (sound.withBias_busy .ready (by rw [done.1]; decide) nofun
        fun _ => Nat.le_antisymm sound.level done.2)).of_frame rfl rfl
    simp only
    split
    · exact ⟨fun law => (law' law).startCheckZone z, (ready.startCheckZone z).law⟩
    · exact ⟨fun law => (law' law).settleIdle z, (ready.settleIdle z).law⟩
  · exact .refl s

theorem State.takeBiasOff_upholds (s : State) (z : Zone) : s.Upholds (s.takeBiasOff z) := by
  unfold State.takeBiasOff
  split
  · next done =>
    refine .of_stages rfl rfl fun law => ?_
    exact (law.setStage ((law.sound z).withBias_busy .off (by rw [done.1]; decide) (fun _ => done.2) nofun)).of_frame
      rfl rfl
  · exact .refl s

theorem Slot.tick_sameBinding (a : Slot) : a.SameBinding a.tick := by
  unfold Slot.tick
  split
  · exact .of_eq rfl rfl rfl
  · exact .refl a

theorem State.takeTick_upholds (s : State) : s.Upholds s.takeTick := by
  unfold State.takeTick
  split
  · exact .refl s
  · refine ⟨fun law => (State.stageLaw_iff _).mpr fun z => ?_, State.SameBindings.law ⟨fun i => ?_, fun _ => ⟨rfl, rfl⟩⟩⟩
    · simpa [State.countTick] using (law.sound z).tick
    · simpa [State.countTick] using s.slots[i].tick_sameBinding

theorem State.takeSlew_upholds (s : State) : s.Upholds s.takeSlew := by
  unfold State.takeSlew
  split
  · exact .refl s
  · refine .of_stages rfl rfl fun law => (State.stageLaw_iff _).mpr fun z => ?_
    simpa [State.slewAll] using (law.sound z).slew

/-! ### Directory and port -/

/-- Whatever a burst of the loader brings stays within directory and queue (R109, R110, R112). -/
theorem State.takeLoaderData_upholds (s : State) (number : BitVec 8) (data : List Byte) :
    s.Upholds (s.takeLoaderData number data) := by
  unfold State.takeLoaderData
  split
  · split
    · exact .refl s
    · split
      · simp only [State.takeDirHeader]
        repeat' split
        all_goals exact .of_frame rfl rfl rfl rfl
      · simp only [State.takeDirEntries, State.endLoad]
        repeat' split
        all_goals exact .of_frame rfl rfl rfl rfl
  · exact .refl s

theorem State.takeLoaderArrival_upholds (s : State) (data : List Byte) : s.Upholds (s.takeLoaderArrival data) := by
  unfold State.takeLoaderArrival
  split
  · split
    · split
      · exact (State.takeLoaderData_upholds _ _ _).after (.of_frame rfl rfl rfl rfl)
      · exact .refl s
    · exact .refl s
  · exact .refl s

/-- A grant changes an engine's request alone, beside port, directory and queue (R146). -/
theorem State.arbitrate_upholds (s : State) : s.Upholds s.arbitrate := by
  unfold State.arbitrate
  split
  · next mode _ => cases mode <;> exact .of_frame rfl rfl rfl rfl
  · split
    · unfold State.grantEngine
      split
      · refine State.Upholds.after (.setEngine ?_) (.of_frame rfl rfl rfl rfl)
        exact ⟨rfl, rfl⟩
      · exact .refl s
    · unfold State.grantLoader
      repeat' split
      all_goals exact .of_frame rfl rfl rfl rfl

theorem State.takeGrant_upholds (s : State) : s.Upholds s.takeGrant := by
  rcases s.takeGrant_cases with ⟨-, eq⟩ | ⟨-, -, -, eq⟩ | ⟨-, eq⟩ <;> rw [eq]
  · exact s.arbitrate_upholds
  · exact (State.arbitrate_upholds _).after (.of_frame rfl rfl rfl rfl)
  · exact .refl s

theorem State.takeHoldExpiry_upholds (s : State) : s.Upholds s.takeHoldExpiry := by
  unfold State.takeHoldExpiry
  repeat' split
  all_goals exact .of_frame rfl rfl rfl rfl

theorem State.takeByteEnd_upholds (s : State) (received : Byte) : s.Upholds (s.takeByteEnd received) := by
  have ended (t : State) : t.Upholds t.completeEnd.endWaitingRelease := by
    have completed : t.Upholds t.completeEnd := by
      unfold State.completeEnd
      split <;> exact .of_frame rfl rfl rfl rfl
    unfold State.endWaitingRelease
    split
    · exact completed.trans (.of_frame rfl rfl rfl rfl)
    · exact completed
  unfold State.takeByteEnd
  split
  · exact .refl s
  · exact (ended _).after (.of_frame rfl rfl rfl rfl)

/-! ### Frames and the engines' own events -/

/-- An engine's burst reaches it and its announcement (R66). -/
theorem State.takeEngineData_upholds (s : State) (e : EngineId) (epoch : BitVec 8) (data : List Byte) :
    s.Upholds (s.takeEngineData e epoch data) := by
  unfold State.takeEngineData
  split
  · exact .refl s
  · split
    · exact .refl s
    · next h bound =>
      refine .of_bindings rfl rfl fun law => ?_
      obtain unbound | ⟨i, serves⟩ := (s.bindingLaw_iff.mp law).1 e
      · rw [unbound.binding] at bound; cases bound
      · obtain rfl := Option.some.inj (serves.binding.symm.trans bound)
        simp only [handleSlot_handleAt]
        have attends := Bound.takeArrival_attends { eng := s.engines[e], slot := s.slots[i] } s.dir data
        have played := Bound.takeArrival_played { eng := s.engines[e], slot := s.slots[i] } s.dir data
        generalize Bound.takeArrival { eng := s.engines[e], slot := s.slots[i] } s.dir data = b at attends played ⊢
        obtain ⟨busy, going, fading⟩ := attends.engaged ⟨serves.busy, serves.going, serves.fading⟩
        have engine : ((s.setEngine e b.eng).setSlot i b.slot).engines[e] = b.eng := s.setEngine_get_self e _
        have slot : ((s.setEngine e b.eng).setSlot i b.slot).slots[i] = b.slot := s.setSlot_get_self i _
        refine law.update (.inl serves) (.inl ⟨?_, ?_, ?_, ?_, ?_⟩) (fun f other => s.setEngine_get_other e f _ other)
          fun j other => s.setSlot_get_other i j _ other
        · have handle : ((s.setEngine e b.eng).setSlot i b.slot).handleAt i = s.handleAt i := by
            simp only [State.handleAt, slot, played.generation]
          rw [engine, handle]
          exact attends.binding.trans serves.binding
        · rw [slot]
          exact (congrArg Slot.engine played.standing :).trans serves.engine
        · rw [engine]; exact busy
        · rw [slot]; exact going
        · rw [engine, slot]; exact fading

theorem State.takeEngineArrival_upholds (s : State) (data : List Byte) : s.Upholds (s.takeEngineArrival data) := by
  unfold State.takeEngineArrival
  split
  · split
    · split
      · exact (State.takeEngineData_upholds _ _ _ _).after (.of_frame rfl rfl rfl rfl)
      · exact .refl s
    · exact .refl s
  · exact .refl s

/-- The events of the engine's own leave binding and state. -/
theorem Engine.fadeDone_sameBinding (e : Engine) : e.SameBinding e.fadeDone := by
  unfold Engine.fadeDone
  split
  · rw [Engine.withdrawUngranted_frame]; exact ⟨rfl, rfl⟩
  · exact ⟨rfl, rfl⟩

theorem Engine.endGap_sameBinding (e : Engine) : e.SameBinding e.endGap := by
  unfold Engine.endGap
  split <;> exact ⟨rfl, rfl⟩

theorem State.takeGapEnd_upholds (s : State) (e : EngineId) : s.Upholds (s.takeGapEnd e) := by
  unfold State.takeGapEnd
  split
  · exact .setEngine (Engine.endGap_sameBinding _)
  · exact .refl s

theorem State.takeRepeatGapEnd_upholds (s : State) (e : EngineId) : s.Upholds (s.takeRepeatGapEnd e) := by
  unfold State.takeRepeatGapEnd
  split
  · exact .setEngine (Engine.endGap_sameBinding _)
  · exact .refl s

theorem State.takeFrame_upholds (s : State) : s.Upholds s.takeFrame := by
  refine ⟨fun law => (State.stageLaw_iff _).mpr fun z => ?_, fun law => law.takeFrame⟩
  have zones : s.takeFrame.zones = s.zones := by rw [State.takeFrame_eq]
  rw [State.takeFrame_stage, zones]
  exact (law.sound z).frame _

/-! ### Every step -/

/-- The reset values meet both laws (R54, R83, R138). -/
theorem State.Upholds.of_reset {s t : State} (slots : t.slots = State.reset.slots) (zones : t.zones = State.reset.zones)
    (stages : t.stages = State.reset.stages) (engines : t.engines = State.reset.engines) : s.Upholds t := by
  obtain ⟨-, -, -, -, -, -, stageLaw, -, bindingLaw, -, -⟩ := resetMeetsTheLaws
  have reset : State.reset.Upholds t := .of_frame slots zones stages engines
  exact ⟨fun _ => reset.stages stageLaw, fun _ => reset.bindings bindingLaw⟩

theorem State.Upholds.whenRunning {s : State} {act : State → State} (h : s.Upholds (act s)) :
    s.Upholds (s.whenRunning act) := by
  unfold State.whenRunning
  split
  · exact .refl s
  · exact h

theorem State.fallHcs_upholds (s : State) : s.Upholds s.fallHcs := by
  unfold State.fallHcs
  repeat' split
  all_goals exact .of_frame rfl rfl rfl rfl

theorem State.takeAddress_upholds (s : State) (b : Byte) : s.Upholds (s.takeAddress b) := by
  unfold State.takeAddress
  repeat' split
  all_goals exact .of_frame rfl rfl rfl rfl

/-- Every command keeps the laws of stages and bindings. -/
theorem exec_upholds (c : Instr) (s : State) : ∃ t, exec c s = .next t ∧ s.Upholds t := by
  cases c with
  | annOpen => exact ⟨_, rfl, State.hostCommand_upholds annOpenBody_upholds s _⟩
  | annAppend => exact ⟨_, rfl, State.hostCommand_upholds annAppendBody_upholds s _⟩
  | annSubmit => exact ⟨_, rfl, State.hostCommand_upholds annSubmitBody_upholds s _⟩
  | annCancel => exact ⟨_, rfl, State.hostCommand_upholds annCancelBody_upholds s _⟩
  | annStatus => exact ⟨_, rfl, State.hostCommand_upholds annStatusBody_upholds s _⟩
  | zoneSet => exact ⟨_, rfl, State.hostCommand_upholds zoneSetBody_upholds s _⟩
  | dirLoad => exact ⟨_, rfl, State.hostCommand_upholds dirLoadBody_upholds s _⟩
  | flashConfig => exact ⟨_, rfl, State.hostCommand_upholds flashConfigBody_upholds s _⟩
  | flashClaim => exact ⟨_, rfl, State.hostCommand_upholds flashClaimBody_upholds s _⟩
  | flashRelease => exact ⟨_, rfl, State.hostCommand_upholds flashReleaseBody_upholds s _⟩
  | softReset => exact ⟨_, rfl, State.hostCommand_upholds softResetBody_upholds s _⟩
  | badCommand code =>
    refine ⟨_, rfl, ?_⟩
    split
    · exact .refl s
    · exact State.hostCommand_upholds badCommandBody_upholds s _
  | cmdWriteDiscarded code =>
    refine ⟨_, rfl, ?_⟩
    split
    · exact .hostWrite (.of_frame rfl rfl rfl rfl)
    · exact .refl s
  | registerWrite a v => exact ⟨_, rfl, .hostWrite (s.writeRegister_upholds a v)⟩
  | evpop v => exact ⟨_, rfl, .hostWrite (.of_frame rfl rfl rfl rfl)⟩
  | evmskWrite reg v => exact ⟨_, rfl, .hostWrite (.of_frame rfl rfl rfl rfl)⟩
  | irqcWrite v => exact ⟨_, rfl, .hostWrite (.of_frame rfl rfl rfl rfl)⟩
  | ptctlWrite v => exact ⟨_, rfl, .hostWrite (.of_frame rfl rfl rfl rfl)⟩
  | ptdatWrite v => exact ⟨_, rfl, .hostWrite (.of_frame rfl rfl rfl rfl)⟩
  | ptByteEnd received => exact ⟨_, rfl, .whenRunning (s.takeByteEnd_upholds received)⟩
  | powerOnReset => exact ⟨_, rfl, .of_reset rfl rfl rfl rfl⟩
  | pinReset => exact ⟨_, rfl, .of_reset rfl rfl rfl rfl⟩
  | frame => exact ⟨_, rfl, .whenRunning s.takeFrame_upholds⟩
  | tick => exact ⟨_, rfl, .whenRunning s.takeTick_upholds⟩
  | volumeSlewStep => exact ⟨_, rfl, .whenRunning s.takeSlew_upholds⟩
  | deadlineExpiry i => exact ⟨_, rfl, .whenRunning (s.takeExpiry_upholds i)⟩
  | idleTimerExpiry z => exact ⟨_, rfl, .whenRunning (s.takeIdleExpiry_upholds z)⟩
  | holdExpiry => exact ⟨_, rfl, .whenRunning s.takeHoldExpiry_upholds⟩
  | schedulingPass => exact ⟨_, rfl, .whenRunning s.takePass_upholds⟩
  | start i => exact ⟨_, rfl, .whenRunning (s.takeStart_upholds i)⟩
  | engineFadeDone e => exact ⟨_, rfl, .whenRunning (.setEngine (Engine.fadeDone_sameBinding _))⟩
  | fadeEnd e => exact ⟨_, rfl, .whenRunning (s.takeFadeEnd_upholds e)⟩
  | completion e => exact ⟨_, rfl, .whenRunning (s.takeCompletion_upholds e)⟩
  | zoneFadeEnd z => exact ⟨_, rfl, .whenRunning (s.takeZoneFadeEnd_upholds z)⟩
  | biasReady z => exact ⟨_, rfl, .whenRunning (s.takeBiasReady_upholds z)⟩
  | biasOff z => exact ⟨_, rfl, .whenRunning (s.takeBiasOff_upholds z)⟩
  | gapEnd e => exact ⟨_, rfl, .whenRunning (s.takeGapEnd_upholds e)⟩
  | repeatGapEnd e => exact ⟨_, rfl, .whenRunning (s.takeRepeatGapEnd_upholds e)⟩
  | portGrant => exact ⟨_, rfl, .whenRunning s.takeGrant_upholds⟩
  | engineBurstArrival data => exact ⟨_, rfl, .whenRunning (s.takeEngineArrival_upholds data)⟩
  | loaderBurstArrival data => exact ⟨_, rfl, .whenRunning (s.takeLoaderArrival_upholds data)⟩
  | resetnHeldLow => exact ⟨_, rfl, .of_reset rfl rfl rfl rfl⟩
  | hcsFall => exact ⟨_, rfl, s.fallHcs_upholds⟩
  | addressByte b => exact ⟨_, rfl, .whenRunning (s.takeAddress_upholds b)⟩
  | hcsRise => exact ⟨_, rfl, .of_frame rfl rfl rfl rfl⟩

/-- Taking the front command touches neither law; the command then keeps both. -/
theorem step_upholds {s t : State} (h : step s = .next t) : s.Upholds t := by
  unfold step at h
  split at h
  · obtain rfl := Host.Outcome.next.inj h
    exact .refl s
  · next c rest _ =>
    obtain ⟨u, eq, upholds⟩ := exec_upholds c (s.withPending rest)
    obtain rfl := Host.Outcome.next.inj (eq.symm.trans h)
    exact upholds.after (.of_frame rfl rfl rfl rfl)

/-- Settles O56: the law is one of each stage beside its zone record, and each operation on a stage keeps it for the
record that stands afterwards. -/
theorem everyStepKeepsStageLaw : Obligations.EveryStepKeepsStageLaw := fun _ _ law h => (step_upholds h).stages law

/-- Settles O58: each engine serves one announcement or is unbound, and a step leaves these pairs or changes one; a
frame keeps each pair engaged. -/
theorem everyStepKeepsBindingLaw : Obligations.EveryStepKeepsBindingLaw :=
  fun _ _ law h => (step_upholds h).bindings law

end Sys2Proof.Machine

/-! ## Chapters 2 and 6 proofs: ramps, zone fades and the fades of announcements that end -/

namespace Sys2Proof.Machine

/-! ### Idle holds that begin and starts that are checked -/

/-- An idle hold that begins: RAMP_DOWN at once for 0, no timer for 255, a timer of tenths of a second otherwise
(R125). -/
theorem Stage.startIdle_eq (g : Stage) :
    g.startIdle
      = { g with
          bias := if g.idleHold = 0 then .rampDown else g.bias
          idleTimer := if g.idleHold = 0 ∨ g.idleHold = 255 then none else some (10 * g.idleHold) } := by
  unfold Stage.startIdle
  split
  · next none_held => simp [none_held]
  · next some_held => split <;> simp [*]

/-- A zone of no announcement that has just become READY, without a zone fade, begins its idle hold (R125). -/
theorem State.settleIdle_vacant {s : State} {z : Zone} (vacant : s.zones[z] = { owner := none, claimant := none })
    (ready : s.stages[z].bias = .ready) (unfaded : s.stages[z].fade = none) :
    s.settleIdle z = s.setStage z s.stages[z].startIdle := by
  have idle : s.zoneIdle z = true :=
    (s.zoneIdle_iff z).mpr ⟨ready, congrArg ZoneRec.owner vacant, congrArg ZoneRec.claimant vacant, unfaded⟩
  rw [State.settleIdle_eq, idle, if_pos rfl]

/-- The start check of a claimed zone sets at most the claimant's due start, and sets it where that is ready (R41). -/
theorem State.startCheckZone_claimed {s : State} {z : Zone} {h : Handle} (claims : s.zones[z].claimant = some h) :
    ∃ (due : Bool) (t : State), s.startCheckZone z = t
      ∧ t = { s with slots := s.slots.set (handleSlot h) { s.slots[handleSlot h] with startDue := due } }
      ∧ (due = true ↔ s.slots[handleSlot h].startDue = true
        ∨ (s.slots[handleSlot h].state = .granted ∧ t.zonesReady s.slots[handleSlot h].effZones)) := by
  have checked : s.startCheckZone z = s.startCheck (handleSlot h) := by simp only [State.startCheckZone, claims]
  rw [checked, State.startCheck_eq]
  refine ⟨_, _, rfl, rfl, ?_⟩
  rw [Bool.or_eq_true, State.readyToStart_iff]
  exact Iff.rfl

/-! ### Timers and ramps -/

/-- Settles O37: the four rows with their condition met, and what follows a ramp up by the zone's claimant. -/
theorem timersAndRampsEnd : Obligations.TimersAndRampsEnd := by
  intro s z up
  refine ⟨fun expired => ?_, fun down empty => ?_, fun ramp full unfaded vacant => ?_,
    fun h i ramp full claims slot => ?_⟩
  · have row : exec (.idleTimerExpiry z) s = .next (s.takeIdleExpiry z) := congrArg _ (State.whenRunning_up up _)
    rw [row, State.takeIdleExpiry, if_pos expired]
    rfl
  · have row : exec (.biasOff z) s = .next (s.takeBiasOff z) := congrArg _ (State.whenRunning_up up _)
    rw [row, State.takeBiasOff, if_pos ⟨down, empty⟩]
    rfl
  · have row : exec (.biasReady z) s = .next (s.takeBiasReady z) := congrArg _ (State.whenRunning_up up _)
    have unclaimed : ¬ s.zones[z].claimant.isSome = true := by rw [vacant]; decide
    have settled := State.settleIdle_vacant (z := z)
      (s := (s.setStage z { s.stages[z] with bias := .ready }).offer (EventRecord.zone z .ready)) vacant
      (congrArg Stage.bias (s.setStage_get_self z _)) ((congrArg Stage.fade (s.setStage_get_self z _)).trans unfaded)
    rw [row, State.takeBiasReady, if_pos ⟨ramp, full.ge⟩]
    refine congrArg _ ((if_neg unclaimed).trans (settled.trans ?_))
    simp [Stage.startIdle_eq, State.setStage, State.offer, EventRecord.zone, byteOf, biasCode]
  · subst slot
    have row : exec (.biasReady z) s = .next (s.takeBiasReady z) := congrArg _ (State.whenRunning_up up _)
    obtain ⟨due, t, checked, record, iff⟩ := State.startCheckZone_claimed (z := z)
      (s := (s.setStage z { s.stages[z] with bias := .ready }).offer (EventRecord.zone z .ready)) claims
    have claimed : s.zones[z].claimant.isSome = true := by rw [claims]; rfl
    rw [row, State.takeBiasReady, if_pos ⟨ramp, full.ge⟩]
    refine ⟨t, congrArg _ ((if_pos claimed).trans checked), ?_, fun j other => ?_, due, ?_, iff⟩
    · rw [record]; rfl
    · rw [record]; exact s.setSlot_get_other _ _ _ other
    · rw [record]; exact s.setSlot_get_self _ _

/-- With no claimant, a zone that is disabled or was faded by a soft reset ramps down (R133). -/
theorem State.afterZoneFade_rampsDown {s : State} {z : Zone} {cause : FadeCause}
    (why : s.stages[z].enabled = false ∨ cause = .softReset) :
    s.afterZoneFade z cause = s.setStage z s.stages[z].rampDownNow := by
  unfold State.afterZoneFade
  split
  · next enabled => exact absurd (why.resolve_right nofun) (by rw [enabled]; decide)
  · rfl
  · rfl

/-- With no claimant, an enabled zone that was faded by a disable becomes idle (R133). -/
theorem State.afterZoneFade_settles {s : State} {z : Zone} (enabled : s.stages[z].enabled = true) :
    s.afterZoneFade z .disable = s.settleIdle z := by
  unfold State.afterZoneFade
  rw [enabled]

/-- Settles O43: the zone fade leaves its stage, and the claimant, the enable and the cause decide what follows. -/
theorem zoneFadeEndsByCause : Obligations.ZoneFadeEndsByCause := by
  intro s z f up fade full ready
  have row : exec (.zoneFadeEnd z) s = .next (s.takeZoneFadeEnd z) := congrArg _ (State.whenRunning_up up _)
  have ended : s.takeZoneFadeEnd z
      = if s.zones[z].claimant.isSome then (s.setStage z { s.stages[z] with fade := none }).startCheckZone z
        else (s.setStage z { s.stages[z] with fade := none }).afterZoneFade z f.cause := by
    simp only [State.takeZoneFadeEnd, fade]
    rw [if_neg (by omega)]
    rfl
  have self := s.setStage_get_self z { s.stages[z] with fade := none }
  rw [row, ended]
  refine ⟨fun unclaimed cause => ?_, fun vacant enabled cause => ?_, fun h claims => ?_⟩
  · have after := State.afterZoneFade_rampsDown (s := s.setStage z { s.stages[z] with fade := none }) (z := z)
      (cause.imp_left (congrArg Stage.enabled self).trans)
    rw [unclaimed, if_neg nofun, after, self]
    simp only [Stage.rampDownNow, ready]
    simp [State.setStage]
  · have settled := State.settleIdle_vacant (s := s.setStage z { s.stages[z] with fade := none }) vacant
      ((congrArg Stage.bias self).trans ready) (congrArg Stage.fade self)
    have after := State.afterZoneFade_settles (s := s.setStage z { s.stages[z] with fade := none })
      ((congrArg Stage.enabled self).trans enabled)
    rw [vacant, if_neg nofun, cause, after, settled, self, Stage.startIdle_eq]
    simp only [Fin.getElem_fin] at ready
    simp [State.setStage, ready]
  · obtain ⟨due, t, checked, record, iff⟩ :=
      State.startCheckZone_claimed (s := s.setStage z { s.stages[z] with fade := none }) claims
    have claimed : s.zones[z].claimant.isSome = true := by rw [Option.mem_def.mp claims]; rfl
    rw [if_pos claimed]
    exact ⟨due, t, congrArg _ checked, record, iff⟩

/-! ### The disposal of a STOPPING announcement -/

/-- A disposal that frees the slot: by the stopping reason, the cancel pending and the policy (R48). -/
theorem State.dispose_frees {s : State} {i : SlotId} {why : Stopping} {outcome : Byte}
    (stop : s.slots[i].stop = some why)
    (ends : (why.reason, outcome) ∈ [(StopReason.cancelled, 2#8), (StopReason.aborted, 5#8)]
      ∨ (why.reason = .preempted ∧ why.cancelPending = true ∧ outcome = 2#8)
      ∨ (why.reason = .preempted ∧ why.cancelPending = false ∧ s.slots[i].policy = .discard ∧ outcome = 3#8)) :
    ∃ o : AnnOutcome, outcomeCode o = outcome ∧ s.dispose i = s.freeSlot i o := by
  obtain ⟨reason, pending, by_⟩ := why
  simp only [List.mem_cons, Prod.mk.injEq, List.not_mem_nil, or_false] at ends
  simp only [State.dispose, stop]
  obtain (⟨rfl, rfl⟩ | ⟨rfl, rfl⟩) | ⟨rfl, rfl, rfl⟩ | ⟨rfl, rfl, policy, rfl⟩ := ends
  · exact ⟨.cancelled, rfl, rfl⟩
  · exact ⟨.aborted, rfl, rfl⟩
  · exact ⟨.cancelled, rfl, rfl⟩
  · rw [policy]
    exact ⟨.preempted, rfl, rfl⟩

/-- A preempted announcement that is to be requeued: to its start, or to its play position (R48, R49). -/
theorem State.dispose_requeues {s : State} {i : SlotId} {why : Stopping} (stop : s.slots[i].stop = some why)
    (reason : why.reason = .preempted) (pending : why.cancelPending = false) :
    (s.slots[i].policy = .restart → s.dispose i = s.requeue i .restart (why.preemptor.getD 0xFF#8))
      ∧ (s.slots[i].policy = .resume → s.dispose i = s.requeue i .resume (why.preemptor.getD 0xFF#8)) := by
  obtain ⟨reason, pending, by_⟩ := why
  subst reason pending
  simp only [State.dispose, stop]
  refine ⟨fun policy => ?_, fun policy => ?_⟩ <;> rw [policy]

/-- What a disposal leaves as it was: all but its slot, the pool, the list, the pass and the events. -/
theorem State.dispose_frame (s : State) (i : SlotId) :
    s.dispose i = { s with
        slots := s.slots.set i (s.dispose i).slots[i]
        poolFree := (s.dispose i).poolFree, order := (s.dispose i).order, passPending := (s.dispose i).passPending
        events := (s.dispose i).events } := by
  obtain ⟨o, eq⟩ | ⟨action, by_, eq⟩ := s.dispose_cases i
  · rw [eq]
    simp [State.freeSlot_eq]
  · rw [eq]
    cases action
    · simp [State.requeue_restart]
    · simp [State.requeue_resume]

/-- From s the announcement in slot i has given up its zones and its engine, and the pool, the list and the events stay:
the state in which it is disposed of (R47, R50). -/
structure State.GaveUp (s u : State) (i : SlotId) : Prop where
  record : ∃ due : Bool, u.slots[i] = { s.slots[i] with effZones := 0#4, engine := none, startDue := due }
  poolFree : u.poolFree = s.poolFree
  order : u.order = s.order
  events : u.events = s.events

section
variable {s u : State} {i : SlotId} (gave : s.GaveUp u i)
include gave

theorem State.GaveUp.handleAt : u.handleAt i = s.handleAt i := by
  obtain ⟨due, record⟩ := gave.record
  simp only [State.handleAt, record]

/-- The announcement is freed after it gave up its zones (R28, R29). -/
theorem State.GaveUp.freeSlot (o : AnnOutcome) :
    (u.freeSlot i o).slots[i] = Slot.free (s.slots[i].generation + 1#4)
      ∧ (u.freeSlot i o).poolFree = s.poolFree + s.slots[i].segments.length
      ∧ (u.freeSlot i o).order = s.order.filter (fun j => j != i)
      ∧ (u.freeSlot i o).events = s.events.offer
          { kind := .finished, handle := s.handleAt i, tag := s.slots[i].tag, d0 := outcomeCode o
            d1 := byteOf s.slots[i].underruns, d2 := byteOf s.slots[i].faultCount } := by
  obtain ⟨due, record⟩ := gave.record
  rw [State.freeSlot_eq, gave.handleAt, record, gave.poolFree, gave.order, gave.events]
  exact ⟨State.setSlot_get_self _ _ _, rfl, rfl, rfl⟩

/-- The announcement goes back to its start after it gave up its zones (R7, R49). -/
theorem State.GaveUp.requeue_restart (by_ : Byte) :
    (u.requeue i .restart by_).slots[i]
        = { s.slots[i] with state := .queued, effZones := 0#4, engine := none, stop := none, startDue := false
                            playPos := ⟨0, 1⟩, resume := none }
      ∧ (u.requeue i .restart by_).poolFree = s.poolFree ∧ (u.requeue i .restart by_).order = s.order
      ∧ (u.requeue i .restart by_).events = s.events.offer
          { kind := .preempted, handle := s.handleAt i, tag := s.slots[i].tag, d0 := 1#8, d1 := by_, d2 := 0#8 } := by
  obtain ⟨due, record⟩ := gave.record
  rw [State.requeue_restart, gave.handleAt, record]
  refine ⟨State.setSlot_get_self _ _ _, gave.poolFree, gave.order, ?_⟩
  rw [gave.events]
  rfl

/-- The announcement goes back to its play position after it gave up its zones (R7, R49). -/
theorem State.GaveUp.requeue_resume (by_ : Byte) :
    (u.requeue i .resume by_).slots[i]
        = { s.slots[i] with state := .queued, effZones := 0#4, engine := none, stop := none, startDue := false
                            resume := some s.slots[i].playPos }
      ∧ (u.requeue i .resume by_).poolFree = s.poolFree ∧ (u.requeue i .resume by_).order = s.order
      ∧ (u.requeue i .resume by_).events = s.events.offer
          { kind := .preempted, handle := s.handleAt i, tag := s.slots[i].tag, d0 := 2#8, d1 := by_
            d2 := byteOf s.slots[i].playPos.seg } := by
  obtain ⟨due, record⟩ := gave.record
  rw [State.requeue_resume, gave.handleAt, record]
  refine ⟨State.setSlot_get_self _ _ _, gave.poolFree, gave.order, ?_⟩
  rw [gave.events]
  rfl

end

/-- Settles O41: giving up zones and engine, then the disposal by reason, cancel pending and policy. -/
theorem fadeEndDisposes : Obligations.FadeEndDisposes := by
  intro s e h i a why up
  refine ⟨fun fading full => ?_, fun reported bound slot handle record stopping engine stop => ?_⟩
  · have row : exec (.engineFadeDone e) s = .next (s.setEngine e s.engines[e].fadeDone) :=
      congrArg _ (State.whenRunning_up up _)
    rw [row, Engine.fadeDone, if_pos ⟨fading, full.ge⟩, Engine.withdrawUngranted_eq]
    cases asked : s.engines[e].request with
    | none => rfl
    | some r => cases granted : r.granted <;> simp [State.setEngine, Option.filter, granted]
  · subst record handle
    have row : exec (.fadeEnd e) s = .next (s.takeFadeEnd e) := congrArg _ (State.whenRunning_up up _)
    have reporter : s.reporter e s.engines[e].fadeEndDue = some i := by
      simp only [State.reporter, bound, reported, ← slot]
    have taken : s.takeFadeEnd e = ((s.giveUp i).dispose i).requestPass := by
      simp only [State.takeFadeEnd, reporter]
      rw [if_pos ⟨stopping, engine⟩]
      rfl
    obtain ⟨zones, stages, slots, eq, ⟨due, self⟩, others, at_⟩ := State.giveUp_some engine
    have starts (j : SlotId) (other : j ≠ i) (own : s.ClaimsOwn j) := State.giveUp_due other own
    rw [row, taken]
    rw [eq] at starts ⊢
    generalize gave : ({ s with
      zones := zones, stages := stages, slots := slots
      engines := s.engines.set e (Engine.idle (s.engines[e].epoch + 1#8)) } : State) = u at starts ⊢
    have frame := u.dispose_frame i
    have done : s.GaveUp u i := by rw [← gave]; exact ⟨⟨due, self⟩, rfl, rfl, rfl⟩
    obtain ⟨_, mine⟩ := done.record
    have stop' : u.slots[i].stop = some why := by rw [mine]; exact stop
    have policy' : u.slots[i].policy = s.slots[i].policy := by rw [mine]
    have kept (j : SlotId) (other : j ≠ i) : ((u.dispose i).requestPass).slots[j] = u.slots[j] := by
      rw [frame]; exact State.setSlot_get_other _ i j _ other
    have zones_eq : ((u.dispose i).requestPass).zones = u.zones := by rw [frame]; rfl
    have stages_eq : ((u.dispose i).requestPass).stages = u.stages := by rw [frame]; rfl
    refine ⟨_, rfl, rfl, ?_, fun z => ?_, fun z => ?_, fun j other => ?_, fun law j other => ?_, ?_, ?_, ?_, ?_, ?_,
      fun outcome ends => ?_, fun reason pending policy => ?_, fun reason pending policy => ?_⟩
    · rw [frame, ← gave]; rfl
    · rw [zones_eq, ← gave]; exact (at_ z).1
    · rw [stages_eq, ← gave]; exact (at_ z).2
    · rw [kept j other, ← gave]; exact others j other
    · have due := starts j other (law.claimLaw.claimsOwn j)
      rw [kept j other, due]
      simp only [State.zonesReady, zones_eq, stages_eq]
    · rw [frame, ← gave]; rfl
    · rw [frame, ← gave]; rfl
    · rw [frame, ← gave]; rfl
    · rw [frame, ← gave]; rfl
    · rw [frame, ← gave]; rfl
    · rw [← policy'] at ends
      obtain ⟨o, rfl, freed⟩ := State.dispose_frees stop' ends
      rw [freed]
      exact done.freeSlot o
    · rw [(State.dispose_requeues stop' reason pending).1 (policy'.trans policy)]
      exact done.requeue_restart _
    · rw [(State.dispose_requeues stop' reason pending).2 (policy'.trans policy)]
      exact done.requeue_resume _

end Sys2Proof.Machine

/-! ## Chapter 6 proofs: ZONE_SET that moves the enable -/

namespace Sys2Proof.Machine

/-! ### Steps 1 and 2 of ZONE_SET -/

/-- A stage that is set twice stands as it was set last. -/
theorem State.setStage_setStage (s : State) (z : Zone) (g g' : Stage) :
    (s.setStage z g).setStage z g' = s.setStage z g' := by
  simp [State.setStage]

/-- Steps 1 and 2 set the one stage (R136). -/
theorem State.setVolume_setIdleHold (s : State) (z : Zone) (volume hold : Nat) :
    (s.setVolume z volume).setIdleHold z hold = s.setStage z (s.stageSet z volume hold) := by
  have idle : ((s.setStage z { s.stages[z] with volumeTarget := volume }).setStage z
      { s.stages[z] with volumeTarget := volume, idleHold := hold }).zoneIdle z = s.zoneIdle z := by
    simp [State.zoneIdle]
  simp only [State.setVolume, State.setIdleHold, State.setStage_get_self, eq_comm (b := hold), State.stageSet]
  split
  · rfl
  · rw [State.settleIdle_eq, idle, State.setStage_get_self, State.setStage_setStage, State.setStage_setStage]
    split
    · rw [Stage.startIdle_eq]
    · rfl

/-- What steps 1 and 2 leave of a stage; they do not bring the bias to OFF or from it. -/
theorem State.stageSet_eq (s : State) (z : Zone) (volume hold : Nat) :
    s.stageSet z volume hold
        = { s.stages[z] with
            volumeTarget := volume, idleHold := hold, bias := (s.stageSet z volume hold).bias
            idleTimer := (s.stageSet z volume hold).idleTimer }
      ∧ ((s.stageSet z volume hold).bias = .off ↔ s.stages[z].bias = .off) := by
  unfold State.stageSet
  split
  · next same => subst same; exact ⟨rfl, Iff.rfl⟩
  · split
    · next idle =>
      obtain ⟨ready, -⟩ := (s.zoneIdle_iff z).mp idle
      refine ⟨rfl, ?_⟩
      simp only [ready]
      split <;> simp
    · exact ⟨rfl, Iff.rfl⟩

/-- A zone with an owner is not idle: step 2 sets its hold alone (R125, R136). -/
theorem State.stageSet_owned {s : State} {z : Zone} (owned : s.zones[z].owner ≠ none) (volume hold : Nat) :
    s.stageSet z volume hold = { s.stages[z] with volumeTarget := volume, idleHold := hold } := by
  have busy : ¬ s.zoneIdle z = true := fun idle => owned ((s.zoneIdle_iff z).mp idle).2.1
  unfold State.stageSet
  split
  · next same => subst same; rfl
  · rfl

/-- The reply of a ZONE_SET (11.3). -/
def State.zoneReply (s : State) (z : Zone) : Reply :=
  ⟨.ok, ⟨biasCode s.stages[z].bias, byteOf s.stages[z].volumeCurrent, byteOf (bitOf s.zones[z].owner.isSome),
    byteOf (bitOf s.zones[z].claimant.isSome)⟩⟩

/-- A ZONE_SET with its parameters in range carries out its three steps and replies (R136). -/
theorem zoneSetBody_accepts {p : Params} {s : State} {z : Zone} (zone : p[0].toNat = z.val)
    (enable : p[1].toNat ≤ 1) (volume : p[2].toNat ≤ 128) :
    ∃ t : State, t = (s.setStage z (s.stageSet z p[2].toNat p[3].toNat)).setEnable z (p[1] == 1#8)
      ∧ zoneSetBody p s = (t, some (t.zoneReply z)) := by
  obtain ⟨_, known⟩ := z
  subst zone
  refine ⟨_, rfl, ?_⟩
  unfold zoneSetBody
  rw [dif_pos known, if_neg (by omega), ← State.setVolume_setIdleHold]
  rfl

/-! ### The claimant of a zone that is disabled -/

/-- The first half of the scheduler's part of a disable: the zone's claimant loses its claims (R52). -/
def State.claimantOut (s : State) (z : Zone) : State :=
  match s.zones[z].claimant with
  | some h => s.claimLoss (handleSlot h)
  | none => s

/-- The second half: the zone's owner loses it (R52, R53). -/
def State.ownerOut (s : State) (z : Zone) : State :=
  match s.zones[z].owner with
  | some h => s.ownerLosesZone (handleSlot h) z
  | none => s

theorem State.disableInScheduler_eq (s : State) (z : Zone) : s.disableInScheduler z = (s.claimantOut z).ownerOut z := rfl

theorem State.ownerOut_none {s : State} {z : Zone} (unowned : s.zones[z].owner = none) : s.ownerOut z = s := by
  simp only [State.ownerOut, unowned]

theorem State.ownerOut_some {s : State} {z : Zone} {h : Handle} (owned : s.zones[z].owner = some h) :
    s.ownerOut z = s.ownerLosesZone (handleSlot h) z := by
  simp only [State.ownerOut, owned]

/-- From s to c the announcement that claims zone z has lost its claims, wherever it had them (R39, R52). -/
structure State.Unclaimed (s : State) (z : Zone) (c : State) : Prop where
  frame : c = { s with slots := c.slots, zones := c.zones, stages := c.stages }
  zone : ∀ w : Zone, c.zones[w] = s.zoneUnclaimed z w
  stage : ∀ w : Zone, c.stages[w] = s.stageUnclaimed z w
  slot : ∀ j : SlotId, c.slots[j] = s.slotUnclaimed z j

theorem State.claimantOut_unclaimed {s : State} {z : Zone} (granted : s.claimantGranted z) :
    s.Unclaimed z (s.claimantOut z) := by
  unfold State.claimantOut
  cases claims : s.zones[z].claimant with
  | none =>
    refine ⟨rfl, fun w => ?_, fun w => ?_, fun j => ?_⟩
    · exact (if_neg fun claimed => claimed.1 claims).symm
    · exact (if_neg fun claimed => claimed.1 claims).symm
    · rw [State.slotUnclaimed, if_neg (by rw [claims]; nofun)]
  | some h =>
    obtain ⟨named, was⟩ := granted h claims
    obtain ⟨zones, stages, eq, at_⟩ := s.withdrawClaims_eq h
    have lost : s.claimLoss (handleSlot h)
        = ({ s with zones := zones, stages := stages } : State).setSlot (handleSlot h)
            s.slots[handleSlot h].withoutClaims := by
      simp only [State.claimLoss, named, eq]
      rfl
    simp only [lost]
    refine ⟨rfl, fun w => (at_ w).1.trans ?_, fun w => (at_ w).2.trans ?_, fun j => ?_⟩
    · simp only [State.zoneUnclaimed, claims, ne_eq, reduceCtorEq, not_false_eq_true, true_and]
    · simp only [State.stageUnclaimed, claims, ne_eq, reduceCtorEq, not_false_eq_true, true_and]
    · by_cases mine : j = handleSlot h
      · subst mine
        rw [State.setSlot_get_self, State.slotUnclaimed, if_pos (claims.trans (congrArg some named.symm))]
      · rw [State.setSlot_get_other _ _ _ _ mine, State.slotUnclaimed, if_neg]
        intro claimed
        obtain rfl := Option.some.inj (claims.symm.trans claimed)
        exact mine (handleSlot_handleAt s j).symm

section
variable {s c : State} {z : Zone}

/-- An announcement that is not GRANTED has no claims to lose (R39). -/
theorem State.slotUnclaimed_live {j : SlotId} (live : s.slots[j].state ≠ .granted) :
    s.slotUnclaimed z j = s.slots[j] := by
  have same : s.slots[j].withoutClaims = s.slots[j] := if_neg live
  unfold State.slotUnclaimed
  rw [same]
  exact ite_self _

theorem State.Unclaimed.handleAt (out : s.Unclaimed z c) (j : SlotId) : c.handleAt j = s.handleAt j := by
  have generation : c.slots[j].generation = s.slots[j].generation := by
    rw [out.slot, State.slotUnclaimed, Slot.withoutClaims]
    split
    · split <;> rfl
    · rfl
  rw [State.handleAt, State.handleAt, generation]

/-- Owners are not touched, and the zone itself is left without a claimant (R39). -/
theorem State.Unclaimed.owner (out : s.Unclaimed z c) (w : Zone) : c.zones[w].owner = s.zones[w].owner := by
  rw [out.zone, State.zoneUnclaimed]
  split <;> rfl

theorem State.Unclaimed.claimant (out : s.Unclaimed z c) : c.zones[z].claimant = none := by
  rw [out.zone, State.zoneUnclaimed]
  split
  · rfl
  · next unclaimed => exact by_contra fun claimed => unclaimed ⟨claimed, rfl⟩

/-- The stage's part of a disable, whether or not the lost claims began an idle hold before it (R131, R132). -/
theorem State.stageUnclaimed_disabled (s : State) (z : Zone) :
    (s.stageUnclaimed z z).disabled s.zones[z].owner.isSome
      = if s.zones[z].owner.isSome then
          { s.stages[z] with idleTimer := none, fade := some ⟨0, s.stages[z].lastSample, .disable⟩ }
        else if s.stages[z].fade.isSome then s.stages[z]
        else { s.stages[z] with idleTimer := none, bias := if s.stages[z].bias = .off then .off else .rampDown } := by
  have down (g : Stage) :
      g.rampDownNow = { g with idleTimer := none, bias := if g.bias = .off then .off else .rampDown } := by
    unfold Stage.rampDownNow
    split <;> simp_all
  unfold State.stageUnclaimed
  split
  · next idle =>
    obtain ⟨-, -, unowned, ready, unfaded⟩ := idle
    simp only [unowned, unfaded, ready, Stage.disabled, Stage.startIdle_eq, down, Option.isSome_none,
      Bool.false_eq_true, if_false]
    split <;> simp
  · simp only [Stage.disabled, Stage.startFade, down]

end

/-! ### The third step of ZONE_SET -/

theorem State.setEnable_enables {s : State} {z : Zone} {g : Stage} (off : g.enabled = false) :
    (s.setStage z g).setEnable z true = (s.setStage z { g with enabled := true }).requestPass := by
  unfold State.setEnable State.enableZone
  simp only [State.setStage_get_self, off, State.setStage_setStage, Bool.false_eq_true, if_false, if_true]

/-- The state after a disable, from that after the scheduler's part (R52, R131). -/
def State.stageDisabled (s : State) (z : Zone) (hadOwner : Bool) : State :=
  (s.setStage z (s.stages[z].disabled hadOwner)).requestPass

theorem State.setEnable_disables {s : State} {z : Zone} {g : Stage} (on : g.enabled = true) :
    (s.setStage z g).setEnable z false
      = ((s.setStage z { g with enabled := false }).disableInScheduler z).stageDisabled z s.zones[z].owner.isSome := by
  unfold State.setEnable State.disableZone
  simp only [State.setStage_get_self, on, State.setStage_setStage, Bool.false_eq_true, Bool.true_eq_false, if_false]
  rfl

/-- A ZONE_SET that disables an enabled zone (R136): its effect and its reply from the scheduler's part of it. -/
theorem zoneSet_disables {s d : State} {z : Zone} {g : Stage} (takes : s.takesCommand)
    (zone : s.mailbox.p[0].toNat = z.val) (disable : s.mailbox.p[1] = 0#8) (volume : s.mailbox.p[2].toNat ≤ 128)
    (set : g = s.stageSet z s.mailbox.p[2].toNat s.mailbox.p[3].toNat) (enabled : s.stages[z].enabled = true)
    (scheduled : (((s.latchCommand 0x20#8).setStage z { g with enabled := false }).disableInScheduler z) = d)
    (mailbox : d.mailbox = (s.latchCommand 0x20#8).mailbox) (host : d.host = s.host) :
    exec .zoneSet s
      = .next (({ d.stageDisabled z s.zones[z].owner.isSome with mailbox := s.mailbox } : State).answered 0x20#8 .ok
          ((d.stageDisabled z s.zones[z].owner.isSome).zoneReply z).q) := by
  have on : g.enabled = true := by rw [set, (s.stageSet_eq z _ _).1]; exact enabled
  obtain ⟨t, eq, body⟩ := zoneSetBody_accepts (s := s.latchCommand 0x20#8) zone (by rw [disable]; decide) volume
  have step : t = d.stageDisabled z s.zones[z].owner.isSome := by
    rw [eq, disable, ← scheduled]
    subst set
    exact State.setEnable_disables (s := s.latchCommand 0x20#8) on
  rw [step] at body
  exact congrArg _ (State.hostCommand_acts takes 0x20#8 zoneSetBody _ _ body mailbox host)

/-- The scheduler's part of a disable of a zone whose owner, if it has one, keeps another zone: the claimant loses its
claims, and the owner goes on without the zone (R52, R53). -/
theorem State.disableInScheduler_goesOn {s : State} {z : Zone} (granted : s.claimantGranted z)
    (owned : ∀ h ∈ s.zones[z].owner, s.handleAt (handleSlot h) = h
      ∧ (s.slots[handleSlot h].state = .playing ∨ s.slots[handleSlot h].state = .stopping)
      ∧ s.slots[handleSlot h].effZones &&& ~~~ zoneBit z ≠ 0#4) :
    ∃ d : State, s.disableInScheduler z = d
      ∧ d = { s with slots := d.slots, zones := d.zones, stages := d.stages }
      ∧ d.zones[z] = { owner := none, claimant := none }
      ∧ (∀ w : Zone, w ≠ z → d.zones[w] = s.zoneUnclaimed z w)
      ∧ (∀ w : Zone, d.stages[w] = s.stageUnclaimed z w)
      ∧ ∀ j : SlotId, d.slots[j] = (if s.zones[z].owner = some (s.handleAt j) then
          { s.slots[j] with effZones := s.slots[j].effZones &&& ~~~ zoneBit z }
        else s.slotUnclaimed z j) := by
  have out := State.claimantOut_unclaimed granted
  rw [State.disableInScheduler_eq]
  generalize s.claimantOut z = c at out ⊢
  cases owner : s.zones[z].owner with
  | none =>
    refine ⟨c, State.ownerOut_none ((out.owner z).trans owner), out.frame, ?_, fun w _ => out.zone w, out.stage,
      fun j => out.slot j⟩
    calc c.zones[z] = { owner := c.zones[z].owner, claimant := c.zones[z].claimant } := rfl
      _ = { owner := none, claimant := none } := by rw [out.owner, owner, out.claimant]
  | some h =>
    obtain ⟨named, live, left⟩ := owned h owner
    have record : c.slots[handleSlot h] = s.slots[handleSlot h] := by
      refine (out.slot _).trans (State.slotUnclaimed_live ?_)
      obtain playing | stopping := live
      · rw [playing]; nofun
      · rw [stopping]; nofun
    have goesOn : c.ownerOut z = c.zoneTaken (handleSlot h) z := by
      rw [State.ownerOut_some ((out.owner z).trans owner)]
      exact if_pos (by rw [State.setSlot_get_self]; exact record ▸ left)
    refine ⟨_, goesOn, ?_, ?_, fun w other => ?_, out.stage, fun j => ?_⟩
    · rw [out.frame]; rfl
    · rw [State.zoneTaken_zone, out.claimant]
    · rw [State.zoneTaken_zone_other other, out.zone]
    · by_cases mine : j = handleSlot h
      · subst mine
        rw [State.zoneTaken_slot, record, if_pos (by rw [named])]
      · rw [State.zoneTaken_other mine, out.slot, if_neg]
        intro eq
        rw [Option.some.inj eq] at mine
        exact mine (handleSlot_handleAt s j).symm

theorem byteOf_bitOf (b : Bool) : byteOf (bitOf b) = if b then 1#8 else 0#8 := by cases b <;> rfl

/-- Settles O14: an enable sets the stage; a disable is the loss of the claimant's claims, the owner's loss of the zone,
and the stage's part. -/
theorem zoneSetChangesEnable : Obligations.ZoneSetChangesEnable := by
  intro s z g takes zone volume set
  obtain ⟨kept, off⟩ := s.stageSet_eq z s.mailbox.p[2].toNat s.mailbox.p[3].toNat
  rw [← set] at kept off
  refine ⟨fun disabled enable => ?_, fun enabled disable granted owned => ?_⟩
  · have was : g.enabled = false := by rw [kept]; exact disabled
    obtain ⟨t, eq, body⟩ := zoneSetBody_accepts (s := s.latchCommand 0x20#8) zone (by rw [enable]; decide) volume
    have step : t = ((s.latchCommand 0x20#8).setStage z { g with enabled := true }).requestPass := by
      rw [eq, enable]
      subst set
      exact State.setEnable_enables was
    have acts := State.hostCommand_acts takes 0x20#8 zoneSetBody _ _ body (by rw [step]; rfl) (by rw [step]; rfl)
    have reply : (((s.latchCommand 0x20#8).setStage z { g with enabled := true }).requestPass).zoneReply z
        = ⟨.ok, ⟨biasCode g.bias, byteOf g.volumeCurrent, if s.zones[z].owner.isSome then 1#8 else 0#8,
            if s.zones[z].claimant.isSome then 1#8 else 0#8⟩⟩ := by
      rw [← byteOf_bitOf, ← byteOf_bitOf, State.zoneReply, State.requestPass_stages, State.setStage_get_self]
      rfl
    refine congrArg _ (acts.trans ?_)
    rw [step, reply]
    rfl
  · generalize latched : (s.latchCommand 0x20#8).setStage z { g with enabled := false } = v
    have vacated : v.claimantGranted z ∧ v.stages[z] = { g with enabled := false }
        ∧ ∀ w : Zone, w ≠ z → v.stageUnclaimed z w = s.stageUnclaimed z w := by
      rw [← latched]
      refine ⟨granted, State.setStage_get_self _ _ _, fun w other => ?_⟩
      simp only [State.stageUnclaimed, State.setStage_get_other _ _ _ _ other]
      rfl
    obtain ⟨granted', mine, others⟩ := vacated
    obtain ⟨d, scheduled, frame, zone_z, zone_w, stage, slot⟩ :=
      State.disableInScheduler_goesOn granted' (by rw [← latched]; exact owned)
    have acts := zoneSet_disables takes zone disable volume set enabled (latched ▸ scheduled)
      (by rw [frame, ← latched]; rfl) (by rw [frame, ← latched]; rfl)
    have reply : (d.stageDisabled z s.zones[z].owner.isSome).zoneReply z
        = ⟨.ok, ⟨biasCode (d.stageDisabled z s.zones[z].owner.isSome).stages[z].bias,
            byteOf (d.stageDisabled z s.zones[z].owner.isSome).stages[z].volumeCurrent, 0#8, 0#8⟩⟩ := by
      have zone : (d.stageDisabled z s.zones[z].owner.isSome).zones[z] = { owner := none, claimant := none } := zone_z
      rw [State.zoneReply, zone]
      rfl
    rw [reply] at acts
    have zones : v.zones = s.zones := by rw [← latched]; rfl
    have after : (d.stageDisabled z s.zones[z].owner.isSome).stages[z]
        = (v.stageUnclaimed z z).disabled v.zones[z].owner.isSome := by
      rw [State.stageDisabled, State.requestPass_stages, State.setStage_get_self, stage, zones]
    refine ⟨_, acts, ?_, zone_z, fun w other => ⟨?_, ?_⟩, ?_, fun j => ?_⟩
    · rw [frame, ← latched]; rfl
    · refine (zone_w w other).trans ?_
      rw [← latched]
      rfl
    · exact (State.setStage_get_other _ _ _ _ other).trans ((stage w).trans (others w other))
    · refine after.trans ((State.stageUnclaimed_disabled v z).trans ?_)
      have fade : g.fade = s.stages[z].fade := by rw [kept]
      have lastSample : g.lastSample = s.stages[z].lastSample := by rw [kept]
      simp only [zones, mine, fade, lastSample, off]
    · refine (slot j).trans ?_
      rw [← latched]
      rfl

/-! ### The last zone -/

/-- No zone to release: nothing happens (R47). -/
theorem State.releaseZones_nothing {s : State} {h : Handle} (nothing : ∀ w : Zone, s.zones[w].owner ≠ some h) :
    s.releaseZones h = s := by
  have fold (l : List Zone) :
      l.foldl (fun t z => if t.zones[z].owner = some h then t.dropOwner z else t) s = s := by
    induction l with
    | nil => rfl
    | cons z rest ih => rw [List.foldl_cons, if_neg (nothing z), ih]
  exact fold allZones

/-- An announcement that owns no zone any more gives up its engine alone (R50, R53, R58). -/
theorem State.giveUp_zoneless {s : State} {i : SlotId} {e : EngineId} (bound : s.slots[i].engine = some e)
    (nothing : ∀ w : Zone, s.zones[w].owner ≠ some (s.handleAt i)) :
    s.giveUp i = { s with
        slots := s.slots.set i { s.slots[i] with effZones := 0#4, engine := none }
        engines := s.engines.set e (Engine.idle (s.engines[e].epoch + 1#8)) } := by
  unfold State.giveUp
  rw [State.releaseZones_nothing nothing]
  simp only [State.unbindOf_some bound]
  rfl

/-- The end of an announcement that has lost its last zone (R53): freed or requeued by its policy while PLAYING, and
disposed of as at the end of its fade while STOPPING. -/
inductive State.EndsZoneless (u : State) (i : SlotId) (state : AnnState) (policy : Policy) : State → Prop
  | freed : state = .playing → policy = .discard → u.EndsZoneless i state policy (u.freeSlot i .zoneLost)
  | restarted : state = .playing → policy = .restart → u.EndsZoneless i state policy (u.requeue i .restart 0xFF#8)
  | resumed : state = .playing → policy = .resume → u.EndsZoneless i state policy (u.requeue i .resume 0xFF#8)
  | disposed : state = .stopping → u.EndsZoneless i state policy (u.dispose i).requestPass

/-- An owner loses its last zone (R53). -/
theorem State.ownerLosesZone_last {s : State} {i : SlotId} {z : Zone} (last : s.slots[i].effZones = zoneBit z)
    (live : s.slots[i].state = .playing ∨ s.slots[i].state = .stopping) :
    ((s.zoneTaken i z).giveUp i).EndsZoneless i s.slots[i].state s.slots[i].policy (s.ownerLosesZone i z) := by
  have record := s.zoneTaken_slot (i := i) (z := z)
  have empty : ¬ (s.zoneTaken i z).slots[i].effZones ≠ 0#4 := by
    rw [record, not_not]
    simp only [last]
    exact BitVec.and_not_self _
  unfold State.ownerLosesZone
  simp only
  rw [← State.zoneTaken, if_neg empty]
  obtain playing | stopping := live
  · have now : (s.zoneTaken i z).slots[i].state = .playing := by rw [record]; exact playing
    have policy : (s.zoneTaken i z).slots[i].policy = s.slots[i].policy := by rw [record]
    simp only [now, policy]
    cases kind : s.slots[i].policy with
    | discard => exact .freed playing rfl
    | restart => exact .restarted playing rfl
    | resume => exact .resumed playing rfl
  · have now : (s.zoneTaken i z).slots[i].state = .stopping := by rw [record]; exact stopping
    simp only [now]
    exact .disposed stopping

/-- The end of an announcement changes its slot, the pool, the list, the pass and the events (R28, R49). -/
theorem State.EndsZoneless.frame {u t : State} {i : SlotId} {state : AnnState} {policy : Policy}
    (ends : u.EndsZoneless i state policy t) :
    t = { u with
        slots := u.slots.set i t.slots[i], poolFree := t.poolFree, order := t.order, passPending := t.passPending
        events := t.events } := by
  cases ends with
  | freed => simp [State.freeSlot_eq]
  | restarted => simp [State.requeue_restart]
  | resumed => simp [State.requeue_resume]
  | disposed =>
    have frame := u.dispose_frame i
    generalize u.dispose i = t at frame ⊢
    rw [frame]
    simp [State.requestPass]

section
variable {s u t : State} {i : SlotId} (gave : s.GaveUp u i)
  (ends : u.EndsZoneless i s.slots[i].state s.slots[i].policy t)
include gave ends

/-- An announcement without zones that is freed (R53): ZONE_LOST from PLAYING under DISCARD, and the outcome of its fade
from STOPPING. -/
theorem State.EndsZoneless.frees {outcome : Byte}
    (why : (s.slots[i].state = .playing ∧ s.slots[i].policy = .discard ∧ outcome = 6#8)
      ∨ (s.slots[i].state = .stopping ∧ ∃ why ∈ s.slots[i].stop,
          (why.reason, outcome) ∈ [(StopReason.cancelled, 2#8), (StopReason.aborted, 5#8)]
          ∨ (why.reason = .preempted ∧ why.cancelPending = true ∧ outcome = 2#8)
          ∨ (why.reason = .preempted ∧ why.cancelPending = false ∧ s.slots[i].policy = .discard ∧ outcome = 3#8))) :
    t.slots[i] = Slot.free (s.slots[i].generation + 1#4)
      ∧ t.poolFree = s.poolFree + s.slots[i].segments.length ∧ t.order = s.order.filter (fun j => j != i)
      ∧ t.events = s.events.offer
          { kind := .finished, handle := s.handleAt i, tag := s.slots[i].tag, d0 := outcome
            d1 := byteOf s.slots[i].underruns, d2 := byteOf s.slots[i].faultCount } := by
  obtain ⟨due, record⟩ := gave.record
  obtain ⟨playing, discard, rfl⟩ | ⟨stopping, why, stop, reason⟩ := why
  · cases ends with
    | freed => exact gave.freeSlot .zoneLost
    | restarted _ other => exact nomatch other.symm.trans discard
    | resumed _ other => exact nomatch other.symm.trans discard
    | disposed other => exact nomatch other.symm.trans playing
  · cases ends with
    | freed other => exact nomatch other.symm.trans stopping
    | restarted other => exact nomatch other.symm.trans stopping
    | resumed other => exact nomatch other.symm.trans stopping
    | disposed =>
      have policy : u.slots[i].policy = s.slots[i].policy := by rw [record]
      rw [← policy] at reason
      obtain ⟨o, rfl, freed⟩ := State.dispose_frees (by rw [record]; exact stop) reason
      rw [freed]
      exact gave.freeSlot o

/-- An announcement without zones that is requeued (R53): with preemptor FFh from PLAYING, and as its fade would end from
STOPPING. -/
theorem State.EndsZoneless.requeues {preemptor : Byte}
    (why : (s.slots[i].state = .playing ∧ preemptor = 0xFF#8)
      ∨ (s.slots[i].state = .stopping ∧ ∃ why ∈ s.slots[i].stop, why.reason = .preempted ∧ why.cancelPending = false
          ∧ preemptor = why.preemptor.getD 0xFF#8)) :
    (s.slots[i].policy = .restart →
      t.slots[i] = (u.requeue i .restart preemptor).slots[i] ∧ t.poolFree = (u.requeue i .restart preemptor).poolFree
        ∧ t.order = (u.requeue i .restart preemptor).order ∧ t.events = (u.requeue i .restart preemptor).events)
    ∧ (s.slots[i].policy = .resume →
      t.slots[i] = (u.requeue i .resume preemptor).slots[i] ∧ t.poolFree = (u.requeue i .resume preemptor).poolFree
        ∧ t.order = (u.requeue i .resume preemptor).order ∧ t.events = (u.requeue i .resume preemptor).events) := by
  obtain ⟨due, record⟩ := gave.record
  obtain ⟨playing, rfl⟩ | ⟨stopping, why, stop, reason, pending, rfl⟩ := why
  · cases ends with
    | freed _ discard =>
      exact ⟨fun other => (nomatch other.symm.trans discard), fun other => (nomatch other.symm.trans discard)⟩
    | restarted _ restart => exact ⟨fun _ => ⟨rfl, rfl, rfl, rfl⟩, fun other => (nomatch other.symm.trans restart)⟩
    | resumed _ resume => exact ⟨fun other => (nomatch other.symm.trans resume), fun _ => ⟨rfl, rfl, rfl, rfl⟩⟩
    | disposed other => exact nomatch other.symm.trans playing
  · cases ends with
    | freed other => exact nomatch other.symm.trans stopping
    | restarted other => exact nomatch other.symm.trans stopping
    | resumed other => exact nomatch other.symm.trans stopping
    | disposed =>
      have policy : u.slots[i].policy = s.slots[i].policy := by rw [record]
      obtain ⟨restarts, resumes⟩ := State.dispose_requeues (s := u) (i := i) (by rw [record]; exact stop) reason pending
      refine ⟨fun restart => ?_, fun resume => ?_⟩
      · rw [restarts (policy.trans restart)]
        exact ⟨rfl, rfl, rfl, rfl⟩
      · rw [resumes (policy.trans resume)]
        exact ⟨rfl, rfl, rfl, rfl⟩

end

/-- The scheduler's part of a disable of the last zone of its owner: the claimant loses its claims, and the owner, which
gives up its engine, ends (R52, R53). -/
theorem State.disableInScheduler_ends {s : State} {z : Zone} {i : SlotId} {e : EngineId}
    (granted : s.claimantGranted z) (owner : s.zones[z].owner = some (s.handleAt i))
    (others : ∀ w : Zone, w ≠ z → s.zones[w].owner ≠ some (s.handleAt i)) (last : s.slots[i].effZones = zoneBit z)
    (bound : s.slots[i].engine = some e) (live : s.slots[i].state = .playing ∨ s.slots[i].state = .stopping) :
    ∃ d u : State, s.disableInScheduler z = d
      ∧ s.GaveUp u i ∧ u.EndsZoneless i s.slots[i].state s.slots[i].policy d
      ∧ d = { s with
          slots := d.slots, zones := d.zones, stages := d.stages
          engines := s.engines.set e (Engine.idle (s.engines[e].epoch + 1#8))
          poolFree := d.poolFree, order := d.order, passPending := d.passPending, events := d.events }
      ∧ d.zones[z] = { owner := none, claimant := none }
      ∧ (∀ w : Zone, w ≠ z → d.zones[w] = s.zoneUnclaimed z w)
      ∧ (∀ w : Zone, d.stages[w] = s.stageUnclaimed z w)
      ∧ ∀ j : SlotId, j ≠ i → d.slots[j] = s.slotUnclaimed z j := by
  have out := State.claimantOut_unclaimed granted
  have record : (s.claimantOut z).slots[i] = s.slots[i] := by
    refine (out.slot _).trans (State.slotUnclaimed_live ?_)
    obtain playing | stopping := live
    · rw [playing]; nofun
    · rw [stopping]; nofun
  rw [State.disableInScheduler_eq]
  generalize s.claimantOut z = c at out record ⊢
  have taken : c.ownerOut z = c.ownerLosesZone i z := by
    rw [State.ownerOut_some ((out.owner z).trans owner), handleSlot_handleAt]
  have ends := State.ownerLosesZone_last (s := c) (z := z) (by rw [record]; exact last) (by rw [record]; exact live)
  have mine := c.zoneTaken_slot (i := i) (z := z)
  have gave := State.giveUp_zoneless (s := c.zoneTaken i z) (i := i) (e := e) (by rw [mine, record]; exact bound)
    fun w => by
      rw [State.zoneTaken_handleAt, out.handleAt]
      by_cases there : w = z
      · subst there; rw [State.zoneTaken_zone]; nofun
      · rw [State.zoneTaken_zone_other there, out.owner]; exact others w there
  rw [record] at ends
  rw [mine, record] at gave
  rw [taken]
  generalize (c.zoneTaken i z).giveUp i = u at ends gave
  generalize c.ownerLosesZone i z = d at ends ⊢
  have frame := ends.frame
  have kept (j : SlotId) (other : j ≠ i) : d.slots[j] = u.slots[j] := by
    rw [frame]; exact State.setSlot_get_other _ _ _ _ other
  have zones : d.zones = (c.zoneTaken i z).zones := by rw [frame, gave]
  refine ⟨d, u, rfl, ⟨⟨s.slots[i].startDue, ?_⟩, ?_, ?_, ?_⟩, ends, ?_, ?_, fun w other => ?_, fun w => ?_,
    fun j other => ?_⟩
  · rw [gave]; exact State.setSlot_get_self _ _ _
  · rw [gave, out.frame]; rfl
  · rw [gave, out.frame]; rfl
  · rw [gave, out.frame]; rfl
  · rw [frame, gave, out.frame]; rfl
  · rw [zones, State.zoneTaken_zone, out.claimant]
  · rw [zones, State.zoneTaken_zone_other other, out.zone]
  · rw [← out.stage, frame, gave]; rfl
  · rw [kept j other, gave, ← out.slot]
    exact (State.setSlot_get_other _ _ _ _ other).trans (State.zoneTaken_other other)

/-- Settles O15: the claimant loses its claims, the owner ends without zones, and the stage starts its zone fade. -/
theorem zoneSetTakesLastZone : Obligations.ZoneSetTakesLastZone := by
  intro s z i e a takes zone disable volume enabled record owner granted others last bound live
  subst record
  obtain ⟨g, set⟩ : ∃ g, g = s.stageSet z s.mailbox.p[2].toNat s.mailbox.p[3].toNat := ⟨_, rfl⟩
  have kept := State.stageSet_owned (s := s) (z := z) (by rw [owner]; nofun) s.mailbox.p[2].toNat s.mailbox.p[3].toNat
  rw [← set] at kept
  generalize latched : (s.latchCommand 0x20#8).setStage z { g with enabled := false } = v
  have granted' : v.claimantGranted z := by rw [← latched]; exact granted
  have owner' : v.zones[z].owner = some (v.handleAt i) := by rw [← latched]; exact owner
  have others' : ∀ w : Zone, w ≠ z → v.zones[w].owner ≠ some (v.handleAt i) := by rw [← latched]; exact others
  have slots : v.slots = s.slots := by rw [← latched]; rfl
  have mine : v.stages[z] = { g with enabled := false } := by rw [← latched]; exact State.setStage_get_self _ _ _
  have elsewhere (w : Zone) (other : w ≠ z) : v.stageUnclaimed z w = s.stageUnclaimed z w := by
    rw [← latched]
    simp only [State.stageUnclaimed, State.setStage_get_other _ _ _ _ other]
    rfl
  obtain ⟨d, u, scheduled, gave, ends, frame, zone_z, zone_w, stage, slot⟩ :=
    State.disableInScheduler_ends granted' owner' others' (by rw [slots]; exact last) (by rw [slots]; exact bound)
      (by rw [slots]; exact live.imp_right And.left)
  have acts := zoneSet_disables takes zone disable volume set enabled (latched ▸ scheduled)
    (by rw [frame, ← latched]; rfl) (by rw [frame, ← latched]; rfl)
  have gave : s.GaveUp u i := by rw [← latched] at gave; exact ⟨gave.record, gave.poolFree, gave.order, gave.events⟩
  rw [slots] at ends
  rw [owner] at acts
  have after : (d.stageDisabled z true).stages[z]
      = { s.stages[z] with
            volumeTarget := s.mailbox.p[2].toNat, idleHold := s.mailbox.p[3].toNat, enabled := false
            idleTimer := none, fade := some ⟨0, s.stages[z].lastSample, .disable⟩ } := by
    have owned : v.zones[z].owner.isSome = true := by rw [owner']; rfl
    have disabled := v.stageUnclaimed_disabled z
    rw [owned, if_pos rfl, mine, kept] at disabled
    rw [State.stageDisabled, State.requestPass_stages, State.setStage_get_self, stage, disabled]
  have reply : (d.stageDisabled z true).zoneReply z
      = ⟨.ok, ⟨biasCode s.stages[z].bias, byteOf s.stages[z].volumeCurrent, 0#8, 0#8⟩⟩ := by
    have zone : (d.stageDisabled z true).zones[z] = { owner := none, claimant := none } := zone_z
    rw [State.zoneReply, zone, after]
    rfl
  refine ⟨{ d.stageDisabled z true with mailbox := s.mailbox }, ?_, ?_, zone_z, after, fun w other => ⟨?_, ?_⟩,
    fun j other => ?_, fun outcome why => ends.frees gave why, fun preemptor why => ⟨fun policy => ?_, fun policy => ?_⟩⟩
  · rw [frame, ← latched]; rfl
  · refine acts.trans ?_
    simp only [Option.isSome_some, reply]
  · refine (zone_w w other).trans ?_
    rw [← latched]
    rfl
  · exact (State.setStage_get_other _ _ _ _ other).trans ((stage w).trans (elsewhere w other))
  · refine (slot j other).trans ?_
    rw [← latched]
    rfl
  · obtain ⟨slot, poolFree, order, events⟩ := (ends.requeues gave why).1 policy
    obtain ⟨slot', poolFree', order', events'⟩ := gave.requeue_restart preemptor
    exact ⟨slot.trans slot', poolFree.trans poolFree', order.trans order', events.trans events'⟩
  · obtain ⟨slot, poolFree, order, events⟩ := (ends.requeues gave why).2 policy
    obtain ⟨slot', poolFree', order', events'⟩ := gave.requeue_resume preemptor
    exact ⟨slot.trans slot', poolFree.trans poolFree', order.trans order', events.trans events'⟩

end Sys2Proof.Machine

/-! ## Chapter 2 rules: what one visit of a pass does -/

namespace Sys2Proof.Machine

/-! ### Start checks and engines that enter their fade -/

/-- The start checks of a list of announcements set their due starts alone, each where the announcement is ready (R41). -/
theorem State.startChecks_eq :
    ∀ (l : List SlotId) (s : State), ∃ slots : Vector Slot 16, l.foldl State.startCheck s = { s with slots := slots }
      ∧ ∀ j : SlotId, slots[j]
          = { s.slots[j] with startDue := s.slots[j].startDue || (decide (j ∈ l) && s.readyToStart j) }
  | [], s => ⟨s.slots, rfl, fun j => by simp⟩
  | k :: rest, s => by
    obtain ⟨slots, eq, at_⟩ := State.startChecks_eq rest (s.startCheck k)
    have due (j : SlotId) : (s.startCheck k).slots[j]
        = { s.slots[j] with startDue := s.slots[j].startDue || (decide (j = k) && s.readyToStart j) } := by
      rw [State.startCheck_eq]
      by_cases here : j = k
      · subst here; rw [State.setSlot_get_self]; simp
      · rw [State.setSlot_get_other _ _ _ _ here]; simp [here]
    have ready (j : SlotId) : (s.startCheck k).readyToStart j = s.readyToStart j :=
      State.readyToStart_congr ⟨_, due j⟩ fun _ _ _ => by rw [State.startCheck_eq]; exact ⟨rfl, rfl⟩
    refine ⟨slots, ?_, fun j => ?_⟩
    · rw [List.foldl_cons, eq, State.startCheck_eq]; rfl
    · rw [at_, ready, due]
      simp only [List.mem_cons]
      by_cases here : j = k
      · cases s.readyToStart j <;> simp [here]
      · simp [here]

/-- An engine that stays as it is, or enters its fade (R79, R80). -/
def Engine.MayFade (g g' : Engine) : Prop :=
  g' = g ∨ g' = { g with state := .fading, fadePos := 0, fadePriming := g'.fadePriming }

theorem Engine.MayFade.refl (g : Engine) : g.MayFade g := .inl rfl

theorem Engine.MayFade.trans {a b c : Engine} (h : a.MayFade b) (k : b.MayFade c) : a.MayFade c := by
  obtain rfl | k := k
  · exact h
  · obtain rfl | h := h
    · exact .inr k
    · exact .inr (by rw [k, h])

theorem Engine.enterFading_mayFade (g : Engine) : g.MayFade g.enterFading := .inr rfl

/-- An engine at the start of its fade stays there. -/
theorem Engine.MayFade.fading {g g' : Engine} (h : g.MayFade g') (was : g.state = .fading ∧ g.fadePos = 0) :
    g'.state = .fading ∧ g'.fadePos = 0 := by
  obtain rfl | h := h
  · exact was
  · rw [h]; exact ⟨rfl, rfl⟩

/-! ### The loss of claims -/

/-- From u to t the announcement in slot i has lost its claims (R39). -/
structure State.LosesClaims (u : State) (i : SlotId) (t : State) : Prop where
  frame : t = { u with slots := t.slots, zones := t.zones, stages := t.stages }
  owner : ∀ z : Zone, t.zones[z].owner = u.zones[z].owner
  enabled : ∀ z : Zone, t.stages[z].enabled = u.stages[z].enabled
  record : t.slots[i] = u.slots[i].withoutClaims
  others : ∀ j : SlotId, j ≠ i → t.slots[j] = u.slots[j]
  gone : ∀ z : Zone, t.zones[z].claimant ≠ some (u.handleAt i)
  fewer : ∀ (z : Zone) (a : Handle), t.zones[z].claimant = some a → u.zones[z].claimant = some a
  kept : ∀ (z : Zone) (a : Handle), a ≠ u.handleAt i → u.zones[z].claimant = some a → t.zones[z].claimant = some a

theorem State.claimLoss_losesClaims (u : State) (i : SlotId) : u.LosesClaims i (u.claimLoss i) := by
  obtain ⟨zones, stages, eq, at_⟩ := u.withdrawClaims_eq (u.handleAt i)
  have lost : u.claimLoss i
      = ({ u with zones := zones, stages := stages } : State).setSlot i u.slots[i].withoutClaims := by
    simp only [State.claimLoss, eq]
    rfl
  rw [lost]
  have zone (z : Zone) := (at_ z).1
  refine ⟨rfl, fun z => ?_, fun z => ?_, State.setSlot_get_self _ _ _, fun j => State.setSlot_get_other _ _ _ _,
    fun z claims => ?_, fun z a claims => ?_, fun z a other claims => ?_⟩
  · refine (congrArg ZoneRec.owner (zone z)).trans ?_
    split <;> rfl
  · refine (congrArg Stage.enabled (at_ z).2).trans ?_
    split
    · exact Stage.startIdle_enabled _
    · rfl
  · have claims := (congrArg ZoneRec.claimant (zone z)).symm.trans claims
    split at claims
    · exact nomatch claims
    · next unclaimed => exact unclaimed claims
  · have claims := (congrArg ZoneRec.claimant (zone z)).symm.trans claims
    split at claims
    · exact nomatch claims
    · exact claims
  · refine (congrArg ZoneRec.claimant (zone z)).trans ?_
    rw [if_neg fun mine => other (Option.some.inj (claims.symm.trans mine))]
    exact claims

/-- Where nobody else is touched, handles stand. -/
theorem State.LosesClaims.handleAt {u t : State} {i : SlotId} (lost : u.LosesClaims i t) (j : SlotId) :
    t.handleAt j = u.handleAt j := by
  have generation : t.slots[j].generation = u.slots[j].generation := by
    by_cases here : j = i
    · subst here
      rw [lost.record, Slot.withoutClaims]
      split <;> rfl
    · rw [lost.others j here]
  rw [State.handleAt, State.handleAt, generation]

/-- Displacing the announcements of a list (R37, R39): each that has a claim on one of the zones loses all its claims. -/
structure State.DisplacesIn (u : State) (i : SlotId) (zs : ZoneSet) (l : List SlotId) (t : State) : Prop where
  frame : t = { u with slots := t.slots, zones := t.zones, stages := t.stages }
  owner : ∀ z : Zone, t.zones[z].owner = u.zones[z].owner
  enabled : ∀ z : Zone, t.stages[z].enabled = u.stages[z].enabled
  lost : ∀ j ∈ l, u.Displaced i zs j →
    t.slots[j] = u.slots[j].withoutClaims ∧ ∀ z : Zone, t.zones[z].claimant ≠ some (u.handleAt j)
  others : ∀ j : SlotId, ¬ u.Displaced i zs j → t.slots[j] = u.slots[j]
  fewer : ∀ (z : Zone) (a : Handle), t.zones[z].claimant = some a → u.zones[z].claimant = some a
  kept : ∀ (z : Zone) (j : SlotId), ¬ u.Displaced i zs j → u.zones[z].claimant = some (u.handleAt j) →
    t.zones[z].claimant = some (u.handleAt j)

theorem Slot.withoutClaims_notGranted (a : Slot) : a.withoutClaims.state ≠ .granted := by
  unfold Slot.withoutClaims
  split
  · nofun
  · next other => exact other

theorem State.displaces_list (i : SlotId) (zs : ZoneSet) :
    ∀ (l : List SlotId) (u : State), u.DisplacesIn i zs l (l.foldl (fun t j => t.displace i zs j) u)
  | [], u => ⟨rfl, fun _ => rfl, fun _ => rfl, fun _ mem => (nomatch mem), fun _ _ => rfl, fun _ _ => id,
      fun _ _ _ => id⟩
  | k :: rest, u => by
    rw [List.foldl_cons]
    by_cases displaced : u.Displaced i zs k
    · have step : u.displace i zs k = u.claimLoss k := if_pos displaced
      have lost := u.claimLoss_losesClaims k
      rw [step]
      generalize u.claimLoss k = v at lost ⊢
      have later := State.displaces_list i zs rest v
      generalize rest.foldl (fun t j => t.displace i zs j) v = t at later ⊢
      have out : ¬ v.Displaced i zs k := fun ⟨_, granted, _⟩ => by
        rw [lost.record] at granted
        exact Slot.withoutClaims_notGranted _ granted
      have elsewhere (j : SlotId) (other : j ≠ k) : v.Displaced i zs j ↔ u.Displaced i zs j := by
        rw [State.Displaced, State.Displaced, lost.others j other]
      refine ⟨?_, fun z => (later.owner z).trans (lost.owner z), fun z => (later.enabled z).trans (lost.enabled z),
        fun j mem was => ?_, fun j was => ?_, fun z a claims => lost.fewer z a (later.fewer z a claims),
        fun z j was claims => ?_⟩
      · rw [later.frame, lost.frame]
      · by_cases here : j = k
        · subst here
          exact ⟨(later.others j out).trans lost.record, fun z claims => lost.gone z (later.fewer z _ claims)⟩
        · rw [← lost.others j here, ← lost.handleAt]
          exact later.lost j ((List.mem_cons.mp mem).resolve_left here) ((elsewhere j here).mpr was)
      · have other : j ≠ k := fun e => was (e ▸ displaced)
        exact (later.others j ((elsewhere j other).not.mpr was)).trans (lost.others j other)
      · have other : j ≠ k := fun e => was (e ▸ displaced)
        have still := lost.kept z _ (fun e => other (State.handleAt_inj e)) claims
        rw [← lost.handleAt] at still ⊢
        exact later.kept z j ((elsewhere j other).not.mpr was) still
    · have step : u.displace i zs k = u := if_neg displaced
      rw [step]
      have later := State.displaces_list i zs rest u
      refine { later with lost := fun j mem was => later.lost j ((List.mem_cons.mp mem).resolve_left ?_) was }
      rintro rfl
      exact displaced was

/-! ### Claiming and preempting -/

/-- Claiming the zones of a list changes zones and stages alone, and reserves nothing (R37). -/
theorem Pass.claimZones_frame (h : Handle) :
    ∀ (l : List Zone) (p : Pass),
      (l.foldl (fun q z => q.claimZone h z) p).reserved = p.reserved
        ∧ ∃ (zones : Vector ZoneRec 4) (stages : Vector Stage 4),
            (l.foldl (fun q z => q.claimZone h z) p).state = { p.state with zones := zones, stages := stages }
  | [], p => ⟨rfl, p.state.zones, p.state.stages, rfl⟩
  | y :: rest, p => by
    have one : (p.claimZone h y).reserved = p.reserved
        ∧ ∃ (zones : Vector ZoneRec 4) (stages : Vector Stage 4),
            (p.claimZone h y).state = { p.state with zones := zones, stages := stages } := by
      unfold Pass.claimZone
      split
      · exact ⟨rfl, _, _, rfl⟩
      · exact ⟨rfl, _, _, rfl⟩
    obtain ⟨reserved1, _, _, state1⟩ := one
    obtain ⟨reserved, zones, stages, state⟩ := Pass.claimZones_frame h rest (p.claimZone h y)
    exact ⟨reserved.trans reserved1, zones, stages, state.trans (by rw [state1])⟩

/-- Announcement v is the PLAYING owner of a zone of the list (R38). -/
def State.PlaysOn (u : State) (l : List Zone) (v : SlotId) : Prop :=
  u.slots[v].state = .playing ∧ ∃ z ∈ l, ∃ a, u.zones[z].owner = some a ∧ handleSlot a = v

/-- From u to t the PLAYING owners of the zones of a list are preempted by the announcement with handle h (R38). -/
structure State.PreemptsOn (u : State) (h : Handle) (l : List Zone) (t : State) : Prop where
  frame : t = { u with slots := t.slots, engines := t.engines }
  engine : ∀ e : EngineId, u.engines[e].MayFade t.engines[e]
  others : ∀ v : SlotId, ¬ u.PlaysOn l v → t.slots[v] = u.slots[v]
  preempted : ∀ v : SlotId, u.PlaysOn l v →
    t.slots[v] = { u.slots[v] with state := .stopping, stop := some ⟨.preempted, false, some h⟩ }
      ∧ ∀ e ∈ u.slots[v].engine, t.engines[e].state = .fading ∧ t.engines[e].fadePos = 0

/-- A PLAYING announcement becomes STOPPING: its record, and its engine's fade (R6, R79). -/
theorem State.enterStopping_preempts (u : State) (v : SlotId) (why : Stopping) :
    u.enterStopping v why = { u with slots := (u.enterStopping v why).slots, engines := (u.enterStopping v why).engines }
      ∧ (u.enterStopping v why).slots = u.slots.set v { u.slots[v] with state := .stopping, stop := some why }
      ∧ (∀ e : EngineId, u.engines[e].MayFade (u.enterStopping v why).engines[e])
      ∧ ∀ e ∈ u.slots[v].engine,
          (u.enterStopping v why).engines[e].state = .fading ∧ (u.enterStopping v why).engines[e].fadePos = 0 := by
  cases bound : u.slots[v].engine with
  | none =>
    have eq : u.enterStopping v why = u.setSlot v { u.slots[v] with state := .stopping, stop := some why } := by
      simp only [State.enterStopping, bound]
    rw [eq]
    exact ⟨rfl, rfl, fun e => .refl _, nofun⟩
  | some e =>
    rw [State.enterStopping_some bound]
    refine ⟨rfl, rfl, fun e' => ?_, fun e' mem => ?_⟩
    · by_cases here : e' = e
      · subst here
        rw [show (u.engines.set e' u.engines[e'].enterFading)[e'] = u.engines[e'].enterFading from
          u.setEngine_get_self e' _]
        exact Engine.enterFading_mayFade _
      · rw [show (u.engines.set e u.engines[e].enterFading)[e'] = u.engines[e'] from u.setEngine_get_other e e' _ here]
        exact .refl _
    · obtain rfl := Option.some.inj mem
      rw [show (u.engines.set e u.engines[e].enterFading)[e] = u.engines[e].enterFading from u.setEngine_get_self e _]
      exact ⟨rfl, rfl⟩

theorem State.preempts_list (h : Handle) :
    ∀ (l : List Zone) (u : State), u.PreemptsOn h l (l.foldl (fun t z => t.preemptOwner h z) u)
  | [], u => ⟨rfl, fun _ => .refl _, fun _ _ => rfl, fun _ ⟨_, _, mem, _⟩ => nomatch mem⟩
  | y :: rest, u => by
    rw [List.foldl_cons]
    by_cases plays : ∃ a, u.zones[y].owner = some a ∧ u.slots[handleSlot a].state = .playing
    · obtain ⟨a, owner, playing⟩ := plays
      have step : u.preemptOwner h y = u.enterStopping (handleSlot a) ⟨.preempted, false, some h⟩ := by
        simp only [State.preemptOwner, owner]
        exact if_pos playing
      obtain ⟨frame, slots, engine, fading⟩ := u.enterStopping_preempts (handleSlot a) ⟨.preempted, false, some h⟩
      rw [step]
      generalize u.enterStopping (handleSlot a) ⟨.preempted, false, some h⟩ = v at frame slots engine fading ⊢
      have later := State.preempts_list h rest v
      generalize rest.foldl (fun t z => t.preemptOwner h z) v = t at later ⊢
      have zones : v.zones = u.zones := by rw [frame]
      have record : v.slots[handleSlot a]
          = { u.slots[handleSlot a] with state := .stopping, stop := some ⟨.preempted, false, some h⟩ } := by
        rw [slots]; exact u.setSlot_get_self _ _
      have elsewhere (w : SlotId) (other : w ≠ handleSlot a) : v.slots[w] = u.slots[w] := by
        rw [slots]; exact u.setSlot_get_other _ _ _ other
      have done : ¬ v.PlaysOn rest (handleSlot a) := fun ⟨still, _⟩ => by rw [record] at still; cases still
      have playsOn (w : SlotId) (other : w ≠ handleSlot a) : u.PlaysOn (y :: rest) w ↔ v.PlaysOn rest w := by
        rw [State.PlaysOn, State.PlaysOn, elsewhere w other, zones, List.exists_mem_cons_iff]
        refine and_congr_right fun _ => or_iff_right fun ⟨b, eq, at_⟩ => other ?_
        rw [← at_, Option.some.inj (eq.symm.trans owner)]
      refine ⟨?_, fun e => (engine e).trans (later.engine e), fun w out => ?_, fun w on => ?_⟩
      · rw [later.frame, frame]
      · have other : w ≠ handleSlot a := by
          rintro rfl
          exact out ⟨playing, y, List.mem_cons_self, a, owner, rfl⟩
        exact (later.others w ((playsOn w other).not.mp out)).trans (elsewhere w other)
      · by_cases here : w = handleSlot a
        · subst here
          exact ⟨(later.others _ done).trans record, fun e mem => (later.engine e).fading (fading e mem)⟩
        · rw [← elsewhere w here]
          exact later.preempted w ((playsOn w here).mp on)
    · have step : u.preemptOwner h y = u := by
        unfold State.preemptOwner
        split
        · rfl
        · next a owner => exact if_neg fun playing => plays ⟨a, owner, playing⟩
      have playsOn (w : SlotId) : u.PlaysOn (y :: rest) w ↔ u.PlaysOn rest w := by
        rw [State.PlaysOn, State.PlaysOn, List.exists_mem_cons_iff]
        refine and_congr_right fun playing => or_iff_right fun ⟨a, owner, at_⟩ => plays ⟨a, owner, ?_⟩
        subst at_
        exact playing
      rw [step]
      have later := State.preempts_list h rest u
      exact ⟨later.frame, later.engine, fun w out => later.others w ((playsOn w).not.mp out),
        fun w on => later.preempted w ((playsOn w).mp on)⟩

/-! ### One visit -/

/-- Candidate i is granted at its visit: its effective mask is not empty, and every zone of it takeable (R35, R36). -/
def Pass.Grants (p : Pass) (i : SlotId) : Prop :=
  p.state.effectiveMask i ≠ 0#4 ∧ ∀ z : Zone, inZones (p.state.effectiveMask i) z = true →
    inZones p.reserved z = false ∧ p.state.ownerYields z p.state.slots[i].priority = true

/-- The visit to candidate i displaced announcement j: it was GRANTED with a claim on a zone of the candidate's that no
candidate before had reserved, and has lost its claims (R37, R39). -/
structure Pass.DisplacesAt (p : Pass) (i : SlotId) (q : Pass) (j : SlotId) : Prop where
  granted : p.state.slots[j].state = .granted
  meets : ∃ z : Zone, inZones p.state.slots[j].effZones z = true ∧ inZones (p.state.effectiveMask i) z = true
    ∧ inZones p.reserved z = false
  record : q.state.slots[j] = p.state.slots[j].withoutClaims
  gone : ∀ z : Zone, q.state.zones[z].claimant ≠ some (p.state.handleAt j)

/-- The visit to candidate i preempted announcement v: it was the PLAYING owner of a zone of the candidate's, of lower
priority, and is STOPPING with its engine at the start of its fade (R36, R38). -/
structure Pass.PreemptsAt (p : Pass) (i : SlotId) (q : Pass) (v : SlotId) : Prop where
  playing : p.state.slots[v].state = .playing
  meets : ∃ (z : Zone) (a : Handle), inZones (p.state.effectiveMask i) z = true ∧ p.state.zones[z].owner = some a
    ∧ handleSlot a = v
  lower : p.state.slots[v].priority < p.state.slots[i].priority
  record : q.state.slots[v]
    = { p.state.slots[v] with state := .stopping, stop := some ⟨.preempted, false, some (p.state.handleAt i)⟩ }
  fading : ∀ e ∈ p.state.slots[v].engine, q.state.engines[e].state = .fading ∧ q.state.engines[e].fadePos = 0

/-- What a visit to candidate i can do around it, from p to q (R35 to R39). -/
structure Pass.Visits (p : Pass) (i : SlotId) (q : Pass) : Prop where
  frame : q.state = { p.state with
    slots := q.state.slots, zones := q.state.zones, stages := q.state.stages, engines := q.state.engines }
  owner : ∀ z : Zone, q.state.zones[z].owner = p.state.zones[z].owner
  enabled : ∀ z : Zone, q.state.stages[z].enabled = p.state.stages[z].enabled
  engine : ∀ e : EngineId, p.state.engines[e].MayFade q.state.engines[e]
  reserved : q.reserved = p.reserved ||| p.state.effectiveMask i
  others : ∀ j : SlotId, j ≠ i → q.state.slots[j] = p.state.slots[j] ∨ p.DisplacesAt i q j ∨ p.PreemptsAt i q j
  claims : ∀ (z : Zone) (a : Handle), q.state.zones[z].claimant = some a →
    p.state.zones[z].claimant = some a ∨ a = p.state.handleAt i
  kept : ∀ (z : Zone) (j : SlotId), j ≠ i → q.state.slots[j] = p.state.slots[j] → inZones p.reserved z = true →
    p.state.zones[z].claimant = some (p.state.handleAt j) → q.state.zones[z].claimant = some (p.state.handleAt j)

/-- What a grant does for candidate i itself (R37, R38). -/
structure Pass.Wins (p : Pass) (i : SlotId) (q : Pass) : Prop where
  record : q.state.slots[i]
    = { p.state.slots[i] with state := .granted, effZones := p.state.effectiveMask i }
  claims : ∀ z : Zone, inZones (p.state.effectiveMask i) z = true →
    q.state.zones[z].claimant = some (p.state.handleAt i)
  owners : ∀ (z : Zone) (a : Handle), inZones (p.state.effectiveMask i) z = true → p.state.zones[z].owner = some a →
    p.state.slots[handleSlot a].state = .playing → p.PreemptsAt i q (handleSlot a)

/-- What a visit without a grant does to candidate i itself (R35, R39, R40). -/
structure Pass.Loses (p : Pass) (i : SlotId) (q : Pass) : Prop where
  record : q.state.slots[i] = p.state.slots[i].withoutClaims
  gone : p.state.slots[i].state = .granted → ∀ z : Zone, q.state.zones[z].claimant ≠ some (p.state.handleAt i)
  fewer : ∀ (z : Zone) (a : Handle), q.state.zones[z].claimant = some a → p.state.zones[z].claimant = some a

theorem Pass.grants_iff (p : Pass) (i : SlotId) :
    p.Grants i ↔ p.state.effectiveMask i ≠ 0#4
      ∧ ((zonesOf (p.state.effectiveMask i)).all fun z => p.takeable i z) = true := by
  simp only [Pass.Grants, List.all_eq_true, mem_zonesOf, Pass.takeable, Bool.and_eq_true, Bool.not_eq_true']

/-- An owner that yields is PLAYING with lower priority, or STOPPING (R36). -/
theorem State.ownerYields_some {u : State} {z : Zone} {a : Handle} {priority : Nat} (owner : u.zones[z].owner = some a) :
    u.ownerYields z priority = true ↔ u.slots[handleSlot a].state = .stopping
      ∨ (u.slots[handleSlot a].state = .playing ∧ u.slots[handleSlot a].priority < priority) := by
  simp only [State.ownerYields, owner]
  cases u.slots[handleSlot a].state <;> simp

/-- A visit without a grant: the zones are reserved all the same, and a GRANTED candidate loses its claims. -/
theorem Pass.visit_refused {p : Pass} {i : SlotId} (refused : ¬ p.Grants i) :
    p.Visits i (p.visit i) ∧ p.Loses i (p.visit i) := by
  have visited : (p.visit i).state = p.state.loseIfGranted i
      ∧ (p.visit i).reserved = p.reserved ||| p.state.effectiveMask i := by
    simp only [Pass.visit]
    split
    · next empty => rw [empty]; exact ⟨rfl, BitVec.or_zero.symm⟩
    · next some_ =>
      rw [if_neg fun all => refused ((p.grants_iff i).mpr ⟨some_, all⟩)]
      exact ⟨rfl, rfl⟩
  obtain ⟨state, reserved⟩ := visited
  by_cases granted : p.state.slots[i].state = .granted
  · have lost := p.state.claimLoss_losesClaims i
    rw [show p.state.claimLoss i = (p.visit i).state from (state.trans (if_pos granted)).symm] at lost
    refine ⟨⟨?_, lost.owner, lost.enabled, fun e => ?_, reserved, fun j other => .inl (lost.others j other),
      fun z a claims => .inl (lost.fewer z a claims), fun z j other _ _ => lost.kept z _ fun e => other (State.handleAt_inj e)⟩,
      lost.record, fun _ => lost.gone, lost.fewer⟩
    · rw [lost.frame]
    · rw [lost.frame]; exact .refl _
  · have same : (p.visit i).state = p.state := state.trans (if_neg granted)
    refine ⟨⟨?_, fun z => ?_, fun z => ?_, fun e => ?_, reserved, fun j _ => .inl ?_, fun z a claims => .inl ?_,
    fun z j _ _ _ => ?_⟩, ?_, fun was => absurd was granted, fun z a => ?_⟩
    · rw [same]
    · rw [same]
    · rw [same]
    · rw [same]; exact .refl _
    · rw [same]
    · rw [← same]; exact claims
    · rw [same]; exact id
    · rw [same]; exact (if_neg granted).symm
    · rw [same]; exact id

/-- The candidate has its effective mask, and each zone of it names the candidate as claimant (R37). -/
structure Pass.ClaimsMask (p : Pass) (i : SlotId) (c : State) : Prop where
  frame : c = { p.state with slots := c.slots, zones := c.zones, stages := c.stages }
  record : c.slots[i] = { p.state.slots[i] with state := .granted, effZones := p.state.effectiveMask i }
  others : ∀ j : SlotId, j ≠ i → c.slots[j] = p.state.slots[j]
  owner : ∀ z : Zone, c.zones[z].owner = p.state.zones[z].owner
  claimant : ∀ z : Zone, c.zones[z].claimant
    = if inZones (p.state.effectiveMask i) z then some (p.state.handleAt i) else p.state.zones[z].claimant
  enabled : ∀ z : Zone, c.stages[z].enabled = p.state.stages[z].enabled

/-- The three steps of a grant from p: the claims to c, the preemptions to u, the displacements to t (R37, R38). -/
structure Pass.GrantSteps (p : Pass) (i : SlotId) (c u t : State) : Prop where
  claims : p.ClaimsMask i c
  preempts : c.PreemptsOn (p.state.handleAt i) (zonesOf (p.state.effectiveMask i)) u
  displaces : u.DisplacesIn i (p.state.effectiveMask i) allSlots t

theorem Pass.visit_steps {p : Pass} {i : SlotId} (grants : p.Grants i) :
    (p.visit i).reserved = p.reserved ||| p.state.effectiveMask i
      ∧ ∃ c u : State, p.GrantSteps i c u (p.visit i).state := by
  obtain ⟨some_, all⟩ := (p.grants_iff i).mp grants
  have visited : p.visit i = p.grant i (p.state.effectiveMask i) := by
    simp only [Pass.visit]
    rw [if_neg some_, if_pos all]
  rw [visited, Pass.grant]
  generalize began : ({ p with
      state := p.state.setSlot i { p.state.slots[i] with state := .granted, effZones := p.state.effectiveMask i }
      reserved := p.reserved ||| p.state.effectiveMask i } : Pass) = b
  obtain ⟨slots, zones, enabled⟩ := Pass.claimZones_claims (p.state.handleAt i) (zonesOf (p.state.effectiveMask i)) b
  obtain ⟨reserved, _, _, frame⟩ := Pass.claimZones_frame (p.state.handleAt i) (zonesOf (p.state.effectiveMask i)) b
  simp only
  refine ⟨reserved.trans (by rw [← began]), _, _, ⟨?_, ?_, fun j other => ?_, fun z => ?_, fun z => ?_, fun z => ?_⟩,
    State.preempts_list _ _ _, State.displaces_list _ _ _ _⟩
  · rw [frame, ← began]; rfl
  · rw [slots, ← began]; exact State.setSlot_get_self _ _ _
  · rw [slots, ← began]; exact State.setSlot_get_other _ _ _ _ other
  · rw [zones, ← began]; rfl
  · rw [zones, ← began]; simp only [mem_zonesOf]; rfl
  · rw [enabled, ← began]; rfl

section
variable {p : Pass} {i : SlotId} {c u t : State}

/-- The candidate itself is not preempted. -/
theorem Pass.GrantSteps.claimed (steps : p.GrantSteps i c u t) :
    u.slots[i] = { p.state.slots[i] with state := .granted, effZones := p.state.effectiveMask i } := by
  have out : ¬ c.PlaysOn (zonesOf (p.state.effectiveMask i)) i := fun ⟨playing, _⟩ => by
    rw [steps.claims.record] at playing
    cases playing
  exact (steps.preempts.others i out).trans steps.claims.record

/-- The records around the candidate as the displacements find them. -/
theorem Pass.GrantSteps.preempted_or_same (steps : p.GrantSteps i c u t) {j : SlotId} (other : j ≠ i) :
    (c.PlaysOn (zonesOf (p.state.effectiveMask i)) j
        ∧ u.slots[j] = { p.state.slots[j] with
            state := .stopping, stop := some ⟨.preempted, false, some (p.state.handleAt i)⟩ })
      ∨ u.slots[j] = p.state.slots[j] := by
  by_cases on : c.PlaysOn (zonesOf (p.state.effectiveMask i)) j
  · obtain ⟨record, -⟩ := steps.preempts.preempted j on
    rw [steps.claims.others j other] at record
    exact .inl ⟨on, record⟩
  · exact .inr ((steps.preempts.others j on).trans (steps.claims.others j other))

theorem Pass.GrantSteps.handleAt (steps : p.GrantSteps i c u t) (j : SlotId) :
    u.handleAt j = p.state.handleAt j := by
  have generation : u.slots[j].generation = p.state.slots[j].generation := by
    by_cases here : j = i
    · subst here
      rw [steps.claimed]
    · obtain ⟨-, record⟩ | same := steps.preempted_or_same here
      · rw [record]
      · rw [same]
  rw [State.handleAt, State.handleAt, generation]

theorem Pass.GrantSteps.zones (steps : p.GrantSteps i c u t) : u.zones = c.zones := by rw [steps.preempts.frame]

/-- A claimant after a grant had its claim before, or is the candidate on a zone of its mask. -/
theorem Pass.GrantSteps.claimant (steps : p.GrantSteps i c u t) {z : Zone} {a : Handle}
    (claims : t.zones[z].claimant = some a) : p.state.zones[z].claimant = some a ∨ a = p.state.handleAt i := by
  have was := steps.displaces.fewer z a claims
  rw [steps.zones, steps.claims.claimant] at was
  split at was
  · exact .inr (Option.some.inj was).symm
  · exact .inl was

/-- The PLAYING owners of the candidate's zones are preempted (R38). -/
theorem Pass.GrantSteps.preemptsAt (steps : p.GrantSteps i c u t) (grants : p.Grants i) {q : Pass} (state : q.state = t)
    {j : SlotId} (other : j ≠ i) (on : c.PlaysOn (zonesOf (p.state.effectiveMask i)) j) : p.PreemptsAt i q j := by
  subst state
  obtain ⟨record, fading⟩ := steps.preempts.preempted j on
  obtain ⟨playing, z, mem, a, owner, at_⟩ := on
  rw [steps.claims.others j other] at playing record fading
  rw [steps.claims.owner] at owner
  have mem := mem_zonesOf.mp mem
  have lower : p.state.slots[j].priority < p.state.slots[i].priority := by
    have yields := (State.ownerYields_some owner).mp (grants.2 z mem).2
    simp only [at_] at yields
    obtain stopping | ⟨-, lower⟩ := yields
    · rw [playing] at stopping; cases stopping
    · exact lower
  have kept : q.state.slots[j] = u.slots[j] := steps.displaces.others j fun ⟨_, granted, _⟩ => by
    rw [record] at granted
    cases granted
  have engines : q.state.engines = u.engines := by rw [steps.displaces.frame]
  exact ⟨playing, ⟨z, a, mem, owner, at_⟩, lower, kept.trans record, by rw [engines]; exact fading⟩

/-- The GRANTED announcements that hold a zone of the candidate's are displaced (R37, R39). -/
theorem Pass.GrantSteps.displacesAt (steps : p.GrantSteps i c u t) (grants : p.Grants i) {q : Pass} (state : q.state = t)
    {j : SlotId} (displaced : u.Displaced i (p.state.effectiveMask i) j) : p.DisplacesAt i q j := by
  subst state
  have lost := steps.displaces.lost j (mem_allSlots j) displaced
  obtain ⟨other, granted, meets⟩ := displaced
  obtain ⟨-, record⟩ | same := steps.preempted_or_same other
  · rw [record] at granted; cases granted
  · rw [same] at granted meets
    rw [same, steps.handleAt] at lost
    obtain ⟨z, mine, theirs⟩ : ∃ z : Zone, inZones p.state.slots[j].effZones z = true
        ∧ inZones (p.state.effectiveMask i) z = true := by
      by_contra apart
      refine meets (zoneSet_disjoint_iff.mpr fun z mine => ?_)
      exact Bool.eq_false_iff.mpr fun theirs => apart ⟨z, mine, theirs⟩
    exact ⟨granted, ⟨z, mine, theirs, (grants.2 z theirs).1⟩, lost.1, lost.2⟩

end

/-- A visit with a grant: the zones are claimed, their PLAYING owners preempted, and their other claimants displaced. -/
theorem Pass.visit_granted {p : Pass} {i : SlotId} (grants : p.Grants i)
    (candidate : p.state.slots[i].state.candidate = true) :
    p.Visits i (p.visit i) ∧ p.Wins i (p.visit i) := by
  obtain ⟨reserved, c, u, steps⟩ := Pass.visit_steps grants
  generalize p.visit i = q at reserved steps ⊢
  have engines : q.state.engines = u.engines := by rw [steps.displaces.frame]
  have engine : c.engines = p.state.engines := by rw [steps.claims.frame]
  refine ⟨⟨?_, fun z => ?_, fun z => ?_, fun e => ?_, reserved, fun j other => ?_, fun z a => steps.claimant,
    fun z j other same out claims => ?_⟩, (steps.displaces.others i fun displaced => displaced.1 rfl).trans steps.claimed,
    fun z mem => ?_, fun z a mem owner playing => ?_⟩
  · rw [steps.displaces.frame, steps.preempts.frame, steps.claims.frame]
  · rw [steps.displaces.owner, steps.zones, steps.claims.owner]
  · rw [steps.displaces.enabled, steps.preempts.frame]
    exact steps.claims.enabled z
  · rw [engines, ← engine]
    exact steps.preempts.engine e
  · obtain ⟨on, -⟩ | same := steps.preempted_or_same other
    · exact .inr (.inr (steps.preemptsAt grants rfl other on))
    · by_cases displaced : u.Displaced i (p.state.effectiveMask i) j
      · exact .inr (.inl (steps.displacesAt grants rfl displaced))
      · exact .inl ((steps.displaces.others j displaced).trans same)
  · have kept : ¬ u.Displaced i (p.state.effectiveMask i) j := fun displaced => by
      have gone := steps.displacesAt grants rfl displaced
      have granted := gone.granted
      rw [← same, gone.record] at granted
      exact Slot.withoutClaims_notGranted _ granted
    have apart : ¬ inZones (p.state.effectiveMask i) z = true := fun mem =>
      Bool.false_ne_true ((grants.2 z mem).1.symm.trans out)
    have still : u.zones[z].claimant = some (u.handleAt j) := by
      rw [steps.zones, steps.claims.claimant, if_neg apart, steps.handleAt]
      exact claims
    rw [← steps.handleAt]
    exact steps.displaces.kept z j kept still
  · rw [← steps.handleAt]
    refine steps.displaces.kept z i (fun displaced => displaced.1 rfl) ?_
    rw [steps.zones, steps.claims.claimant, if_pos mem, steps.handleAt]
  · have other : handleSlot a ≠ i := fun e => by
      simp only [e] at playing
      rw [playing] at candidate
      cases candidate
    refine steps.preemptsAt grants rfl other ⟨?_, z, mem_zonesOf.mpr mem, a, ?_, rfl⟩
    · rw [steps.claims.others _ other]; exact playing
    · rw [steps.claims.owner]; exact owner

end Sys2Proof.Machine

/-! ## Chapter 2 proofs: the pass -/

namespace Sys2Proof.Machine

/-! ### The state of a pass after some of its candidates -/

theorem Pass.visit_visits {p : Pass} {i : SlotId} (candidate : p.state.slots[i].state.candidate = true) :
    p.Visits i (p.visit i) := by
  by_cases grants : p.Grants i
  · exact (Pass.visit_granted grants candidate).1
  · exact (Pass.visit_refused grants).1

/-- Two zone sets with the same zones. -/
theorem zoneSet_ext {a b : ZoneSet} (h : ∀ z : Zone, inZones a z = inZones b z) : a = b := by
  revert a b
  decide

theorem inZones_or (a b : ZoneSet) (z : Zone) : inZones (a ||| b) z = (inZones a z || inZones b z) :=
  BitVec.getLsbD_or

theorem State.inZones_effectiveMask (s : State) (i : SlotId) (z : Zone) :
    inZones (s.effectiveMask i) z = (inZones s.slots[i].zoneMask z && s.stages[z].enabled) := by
  rw [State.effectiveMask, inZones_and, s.inZones_enabledZones]

/-- A record of which a pass has changed its own fields alone: the state, the effective zones, the stopping fields and
the due start. -/
def Slot.Rescheduled (a b : Slot) : Prop :=
  b = { a with state := b.state, effZones := b.effZones, stop := b.stop, startDue := b.startDue }

theorem Slot.Rescheduled.refl (a : Slot) : a.Rescheduled a := rfl

theorem Slot.Rescheduled.trans {a b c : Slot} (h : a.Rescheduled b) (k : b.Rescheduled c) : a.Rescheduled c := by
  rw [Slot.Rescheduled, k, h]

theorem Slot.withoutClaims_rescheduled (a : Slot) : a.Rescheduled a.withoutClaims := by
  unfold Slot.withoutClaims
  split <;> rfl

theorem Slot.withoutClaims_candidate {a : Slot} (candidate : a.state.candidate = true) :
    a.withoutClaims.state.candidate = true := by
  unfold Slot.withoutClaims
  split
  · rfl
  · exact candidate

/-- The pass from s has preempted announcement v for candidate j (R36, R38). -/
structure State.PreemptedBy (s : State) (j : SlotId) (p : Pass) (v : SlotId) : Prop where
  meets : ∃ (w : Zone) (a : Handle), inZones (s.effectiveMask j) w = true ∧ s.zones[w].owner = some a ∧ handleSlot a = v
  lower : s.slots[v].priority < s.slots[j].priority
  record : p.state.slots[v]
    = { s.slots[v] with state := .stopping, stop := some ⟨.preempted, false, some (s.handleAt j)⟩ }
  fading : ∀ e ∈ s.slots[v].engine, p.state.engines[e].state = .fading ∧ p.state.engines[e].fadePos = 0

/-- In the pass from s candidate j stands without claims: QUEUED, and named by no zone (R39, R40). -/
structure State.StandsWithout (s : State) (j : SlotId) (p : Pass) : Prop where
  record : p.state.slots[j] = s.slots[j].withoutClaims
  gone : s.slots[j].state = .granted → ∀ z : Zone, p.state.zones[z].claimant ≠ some (s.handleAt j)

/-- In the pass from s candidate j stands with its grant: its effective mask, reserved and claimed (R37). -/
structure State.StandsGranted (s : State) (j : SlotId) (p : Pass) : Prop where
  record : p.state.slots[j] = { s.slots[j] with state := .granted, effZones := s.effectiveMask j }
  claims : ∀ z : Zone, inZones (s.effectiveMask j) z = true →
    p.state.zones[z].claimant = some (s.handleAt j) ∧ inZones p.reserved z = true

/-- The pass that begins in s. -/
def State.passBegun (s : State) : Pass := { state := { s with passPending := false }, reserved := 0#4, ready := [] }

/-- What the pass from s has done after it has visited the candidates `seen` (R35 to R40). -/
structure State.PassedOver (s : State) (seen : List SlotId) (p : Pass) : Prop where
  frame : p.state = { s with
    passPending := false, slots := p.state.slots, zones := p.state.zones, stages := p.state.stages
    engines := p.state.engines }
  owner : ∀ z : Zone, p.state.zones[z].owner = s.zones[z].owner
  enabled : ∀ z : Zone, p.state.stages[z].enabled = s.stages[z].enabled
  engine : ∀ e : EngineId, s.engines[e].MayFade p.state.engines[e]
  reserved : ∀ z : Zone, inZones p.reserved z = true ↔ ∃ j ∈ seen, inZones (s.effectiveMask j) z = true
  record : ∀ j : SlotId, s.slots[j].Rescheduled p.state.slots[j]
  apart : ∀ j : SlotId, s.slots[j].state = .free ∨ s.slots[j].state = .building ∨ s.slots[j].state = .stopping →
    p.state.slots[j] = s.slots[j]
  candidate : ∀ j : SlotId, s.slots[j].state.candidate = true → p.state.slots[j].state.candidate = true
  playing : ∀ v : SlotId, s.slots[v].state = .playing →
    p.state.slots[v] = s.slots[v] ∨ ∃ j ∈ seen, s.PreemptedBy j p v
  waiting : ∀ j : SlotId, s.slots[j].state.candidate = true → j ∉ seen →
    p.state.slots[j] = s.slots[j]
      ∨ (s.slots[j].state = .granted ∧ s.StandsWithout j p
        ∧ ∃ k ∈ seen, ∃ z : Zone, inZones s.slots[j].effZones z = true ∧ inZones (s.effectiveMask k) z = true)

theorem State.passBegun_passedOver (s : State) : s.PassedOver [] s.passBegun where
  frame := rfl
  owner _ := rfl
  enabled _ := rfl
  engine _ := .refl _
  reserved z := by simp [State.passBegun]
  record _ := .refl _
  apart _ _ := rfl
  candidate _ := id
  playing _ _ := .inl rfl
  waiting _ _ _ := .inl rfl

section
variable {s : State} {seen : List SlotId} {p : Pass}

theorem State.PassedOver.handleAt (passed : s.PassedOver seen p) (j : SlotId) : p.state.handleAt j = s.handleAt j := by
  rw [State.handleAt, State.handleAt, passed.record j]

theorem State.PassedOver.priority (passed : s.PassedOver seen p) (j : SlotId) :
    p.state.slots[j].priority = s.slots[j].priority := by rw [passed.record j]

theorem State.PassedOver.effectiveMask (passed : s.PassedOver seen p) (j : SlotId) :
    p.state.effectiveMask j = s.effectiveMask j := by
  refine zoneSet_ext fun z => ?_
  rw [State.inZones_effectiveMask, State.inZones_effectiveMask, passed.record j, passed.enabled]

/-- A visit to another candidate leaves who has been preempted. -/
theorem State.PreemptedBy.visit (passed : s.PassedOver seen p) {i j v : SlotId}
    (candidate : s.slots[i].state.candidate = true) (done : s.PreemptedBy j p v) : s.PreemptedBy j (p.visit i) v := by
  have visits := Pass.visit_visits (passed.candidate i candidate)
  have other : v ≠ i := by
    rintro rfl
    have still := passed.candidate v candidate
    rw [done.record] at still
    cases still
  refine ⟨done.meets, done.lower, ?_, fun e mem => (visits.engine e).fading (done.fading e mem)⟩
  obtain same | displaced | preempted := visits.others v other
  · exact same.trans done.record
  · have granted := displaced.granted
    rw [done.record] at granted
    cases granted
  · have playing := preempted.playing
    rw [done.record] at playing
    cases playing

/-- A visit to another candidate leaves who stands without claims. -/
theorem State.StandsWithout.visit (passed : s.PassedOver seen p) {i j : SlotId}
    (candidate : s.slots[i].state.candidate = true) (other : j ≠ i) (was : s.slots[j].state.candidate = true)
    (done : s.StandsWithout j p) : s.StandsWithout j (p.visit i) := by
  have visits := Pass.visit_visits (passed.candidate i candidate)
  refine ⟨?_, fun granted z claims => ?_⟩
  · obtain same | displaced | preempted := visits.others j other
    · exact same.trans done.record
    · have granted := displaced.granted
      rw [done.record] at granted
      exact absurd granted (Slot.withoutClaims_notGranted _)
    · have playing := preempted.playing
      have still := passed.candidate j was
      rw [playing] at still
      cases still
  · obtain before | mine := visits.claims z _ claims
    · exact done.gone granted z before
    · rw [passed.handleAt] at mine
      exact other (State.handleAt_inj mine)

/-- A visit to another candidate leaves who stands with its grant: its zones are reserved. -/
theorem State.StandsGranted.visit (passed : s.PassedOver seen p) {i j : SlotId}
    (candidate : s.slots[i].state.candidate = true) (other : j ≠ i) (done : s.StandsGranted j p) :
    s.StandsGranted j (p.visit i) := by
  have visits := Pass.visit_visits (passed.candidate i candidate)
  have same : (p.visit i).state.slots[j] = p.state.slots[j] := by
    obtain same | displaced | preempted := visits.others j other
    · exact same
    · obtain ⟨z, mine, -, free⟩ := displaced.meets
      rw [done.record] at mine
      exact absurd free (by rw [(done.claims z mine).2]; decide)
    · have playing := preempted.playing
      rw [done.record] at playing
      cases playing
  refine ⟨same.trans done.record, fun z mem => ?_⟩
  obtain ⟨claims, reserved⟩ := done.claims z mem
  refine ⟨?_, ?_⟩
  · rw [← passed.handleAt] at claims ⊢
    exact visits.kept z j other same reserved claims
  · rw [visits.reserved, inZones_or, reserved, Bool.true_or]

/-- The visit to a candidate that is granted (R37, R38). -/
theorem State.PassedOver.preempts (passed : s.PassedOver seen p) {i v : SlotId}
    (preempted : p.PreemptsAt i (p.visit i) v) (same : p.state.slots[v] = s.slots[v]) :
    s.PreemptedBy i (p.visit i) v := by
  obtain ⟨-, ⟨z, a, mem, owner, at_⟩, lower, record, fading⟩ := preempted
  rw [passed.effectiveMask] at mem
  rw [passed.owner] at owner
  rw [passed.priority, passed.priority] at lower
  rw [same, passed.handleAt] at record
  rw [same] at fading
  exact ⟨⟨z, a, mem, owner, at_⟩, lower, record, fading⟩

/-- The pass goes on over one candidate more. -/
theorem State.PassedOver.visit (passed : s.PassedOver seen p) {i : SlotId}
    (candidate : s.slots[i].state.candidate = true) : s.PassedOver (seen ++ [i]) (p.visit i) := by
  have now := passed.candidate i candidate
  have visits := Pass.visit_visits now
  have self : p.state.slots[i].Rescheduled (p.visit i).state.slots[i]
      ∧ (p.visit i).state.slots[i].state.candidate = true := by
    by_cases grants : p.Grants i
    · rw [(Pass.visit_granted grants now).2.record]
      exact ⟨rfl, rfl⟩
    · rw [(Pass.visit_refused grants).2.record]
      exact ⟨Slot.withoutClaims_rescheduled _, Slot.withoutClaims_candidate now⟩
  refine ⟨?_, fun z => (visits.owner z).trans (passed.owner z), fun z => (visits.enabled z).trans (passed.enabled z),
    fun e => (passed.engine e).trans (visits.engine e), fun z => ?_, fun j => ?_, fun j away => ?_, fun j was => ?_,
    fun v playing => ?_, fun j was fresh => ?_⟩
  · rw [visits.frame, passed.frame]
  · rw [visits.reserved, inZones_or, Bool.or_eq_true, passed.reserved, passed.effectiveMask]
    simp only [List.mem_append, List.mem_singleton, or_and_right, exists_or, exists_eq_left]
  · refine (passed.record j).trans ?_
    by_cases here : j = i
    · subst here; exact self.1
    · obtain same | displaced | preempted := visits.others j here
      · rw [same]; exact .refl _
      · rw [displaced.record]; exact Slot.withoutClaims_rescheduled _
      · rw [preempted.record]; rfl
  · have same := passed.apart j away
    have here : j ≠ i := by
      rintro rfl
      obtain h | h | h := away <;> rw [h] at candidate <;> cases candidate
    obtain same' | displaced | preempted := visits.others j here
    · exact same'.trans same
    · have granted := displaced.granted
      rw [same] at granted
      obtain h | h | h := away <;> rw [h] at granted <;> cases granted
    · have playing := preempted.playing
      rw [same] at playing
      obtain h | h | h := away <;> rw [h] at playing <;> cases playing
  · by_cases here : j = i
    · subst here; exact self.2
    · obtain same | displaced | preempted := visits.others j here
      · rw [same]; exact passed.candidate j was
      · rw [displaced.record]; exact Slot.withoutClaims_candidate (passed.candidate j was)
      · have playing := preempted.playing
        have still := passed.candidate j was
        rw [playing] at still
        cases still
  · obtain same | ⟨j, mem, done⟩ := passed.playing v playing
    · have here : v ≠ i := by
        rintro rfl
        rw [playing] at candidate
        cases candidate
      obtain same' | displaced | preempted := visits.others v here
      · exact .inl (same'.trans same)
      · have granted := displaced.granted
        rw [same, playing] at granted
        cases granted
      · exact .inr ⟨i, by simp, passed.preempts preempted same⟩
    · exact .inr ⟨j, List.mem_append_left _ mem, done.visit passed candidate⟩
  · simp only [List.mem_append, List.mem_singleton, not_or] at fresh
    obtain ⟨fresh, here⟩ := fresh
    obtain same | ⟨granted, done, k, mem, meets⟩ := passed.waiting j was fresh
    · obtain same' | displaced | preempted := visits.others j here
      · exact .inl (same'.trans same)
      · obtain ⟨granted, ⟨z, mine, theirs, -⟩, record, gone⟩ := displaced
        rw [same] at granted mine record
        rw [passed.effectiveMask] at theirs
        rw [passed.handleAt] at gone
        exact .inr ⟨granted, ⟨record, fun _ => gone⟩, i, by simp, z, mine, theirs⟩
      · have playing := preempted.playing
        rw [same] at playing
        rw [playing] at was
        cases was
    · exact .inr ⟨granted, done.visit passed candidate here was, k, List.mem_append_left _ mem, meets⟩

/-- The pass goes on over a list of candidates, and keeps what every visit to one of them keeps. -/
theorem State.PassedOver.visits {P : Pass → Prop} :
    ∀ {l seen : List SlotId} {p : Pass}, s.PassedOver seen p → (∀ k ∈ l, s.slots[k].state.candidate = true) →
      (∀ (seen : List SlotId) (p : Pass), ∀ k ∈ l, s.PassedOver seen p → P p → P (p.visit k)) → P p →
      s.PassedOver (seen ++ l) (l.foldl Pass.visit p) ∧ P (l.foldl Pass.visit p)
  | [], seen, p, passed, _, _, holds => ⟨by rw [List.append_nil]; exact passed, holds⟩
  | k :: rest, seen, p, passed, candidates, step, holds => by
    rw [List.foldl_cons, List.append_cons]
    exact (passed.visit (candidates k List.mem_cons_self)).visits (fun j mem => candidates j (List.mem_cons_of_mem _ mem))
      (fun seen p j mem => step seen p j (List.mem_cons_of_mem _ mem))
      (step seen p k List.mem_cons_self passed holds)

end

end Sys2Proof.Machine

/-! ## Chapter 2 proofs: the end of the pass, and who is granted -/

namespace Sys2Proof.Machine

/-! ### The end of the pass -/

/-- A pass that has visited its candidates finishes: the starts of the GRANTED are checked and the stages' events
offered (R35, R41). -/
structure Pass.Finishes (p : Pass) (t : State) : Prop where
  frame : t = { p.state with slots := t.slots, events := t.events, choices := t.choices }
  record : ∀ j : SlotId,
    t.slots[j] = { p.state.slots[j] with startDue := p.state.slots[j].startDue || p.state.readyToStart j }

/-- Everything a pending pass does (R34, R35). -/
theorem State.takePass_finishes {s : State} (up : s.resetnLow = false) (pending : s.passPending = true) :
    ∃ t : State, exec .schedulingPass s = .next t ∧ (s.candidates.foldl Pass.visit s.passBegun).Finishes t := by
  have row : exec .schedulingPass s = .next s.takePass := congrArg _ (State.whenRunning_up up _)
  refine ⟨_, row, ?_⟩
  obtain ⟨slots, checked, at_⟩ := State.startChecks_eq allSlots (s.candidates.foldl Pass.visit s.passBegun).state
  have taken : ∃ sources, s.takePass
      = (allSlots.foldl State.startCheck (s.candidates.foldl Pass.visit s.passBegun).state).offerFrom sources := by
    rw [State.takePass, if_pos pending]
    exact ⟨_, rfl⟩
  obtain ⟨sources, taken⟩ := taken
  rw [checked] at taken
  rw [taken, State.offerFrom_eq]
  refine ⟨rfl, fun j => (at_ j).trans ?_⟩
  rw [decide_eq_true (mem_allSlots j), Bool.true_and]

section
variable {p : Pass} {t : State}

/-- No start of an announcement that is not GRANTED becomes due (R41). -/
theorem Pass.Finishes.notGranted (ends : p.Finishes t) {j : SlotId} (other : p.state.slots[j].state ≠ .granted) :
    t.slots[j] = p.state.slots[j] := by
  have waits : p.state.readyToStart j = false :=
    Bool.eq_false_iff.mpr fun ready => other ((p.state.readyToStart_iff j).mp ready).1
  rw [ends.record, waits, Bool.or_false]

theorem Pass.Finishes.zones (ends : p.Finishes t) : t.zones = p.state.zones := by rw [ends.frame]

theorem Pass.Finishes.stages (ends : p.Finishes t) : t.stages = p.state.stages := by rw [ends.frame]

theorem Pass.Finishes.engines (ends : p.Finishes t) : t.engines = p.state.engines := by rw [ends.frame]

theorem Pass.Finishes.rescheduled (ends : p.Finishes t) (j : SlotId) : p.state.slots[j].Rescheduled t.slots[j] := by
  rw [ends.record]; rfl

end

/-- Every candidate of the list is one (R35). -/
theorem State.candidates_passedOver (s : State) :
    s.PassedOver s.candidates (s.candidates.foldl Pass.visit s.passBegun) :=
  (s.passBegun_passedOver.visits (fun _ => State.candidate_of_mem) (P := fun _ => True) (fun _ _ _ _ _ _ => trivial)
    trivial).1

/-- Settles O39: the visits one after the other, and then the start checks. -/
theorem passFrame : Obligations.PassFrame := by
  intro s up pending
  obtain ⟨t, row, ends⟩ := State.takePass_finishes up pending
  have passed := s.candidates_passedOver
  generalize s.candidates.foldl Pass.visit s.passBegun = done at ends passed
  refine ⟨t, row, ?_, ?_, fun z => ?_, fun e => ?_, fun v playing spared => ?_, fun i => ⟨fun away => ?_, ?_⟩⟩
  · rw [ends.frame, passed.frame]
  · rw [ends.frame, passed.frame]
  · rw [ends.zones]; exact passed.owner z
  · rw [ends.engines]; exact passed.engine e
  · obtain same | ⟨j, mem, preempted⟩ := passed.playing v playing
    · exact (ends.notGranted (by rw [same, playing]; nofun)).trans same
    · have lower := preempted.lower
      have least := spared j ((AnnState.candidate_iff _).mp (State.candidate_of_mem mem))
      omega
  · have same := passed.apart i away
    refine (ends.notGranted ?_).trans same
    rw [same]
    obtain h | h | h := away <;> rw [h] <;> nofun
  · exact (passed.record i).trans (ends.rescheduled i)

/-! ### The order of the candidates -/

/-- The priorities in order, around one of them. -/
theorem priorities_split (k : Nat) (small : k ≤ 7) :
    ∃ above below : List Nat, [7, 6, 5, 4, 3, 2, 1, 0] = above ++ k :: below
      ∧ (∀ q : Nat, q ∈ above ↔ k < q ∧ q ≤ 7) ∧ ∀ q ∈ below, q < k := by
  have split : ∀ k : Fin 8, [7, 6, 5, 4, 3, 2, 1, 0]
      = [7, 6, 5, 4, 3, 2, 1, 0].filter (fun q => decide (k.val < q))
        ++ k.val :: [7, 6, 5, 4, 3, 2, 1, 0].filter fun q => decide (q < k.val) := by decide
  refine ⟨_, _, split ⟨k, by omega⟩, fun q => ?_, fun q mem => by simpa using (List.mem_filter.mp mem).2⟩
  simp only [List.mem_filter, List.mem_cons, List.not_mem_nil, or_false, decide_eq_true_eq]
  omega

/-- Announcement j is a candidate of priority q (R35). -/
def State.waitsAt (s : State) (q : Nat) (j : SlotId) : Bool := s.slots[j].state.candidate && s.slots[j].priority == q

theorem State.waitsAt_iff (s : State) (q : Nat) (j : SlotId) :
    s.waitsAt q j = true ↔ s.slots[j].state.candidate = true ∧ s.slots[j].priority = q := by
  rw [State.waitsAt, Bool.and_eq_true, beq_iff_eq]

theorem State.candidates_eq (s : State) :
    s.candidates = [7, 6, 5, 4, 3, 2, 1, 0].flatMap fun q => s.order.filter (s.waitsAt q) := rfl

/-- The candidates before and after candidate i in the order of a pass (R35). -/
theorem State.candidates_split {s : State} {i : SlotId} (nodup : s.order.Nodup) (listed : i ∈ s.order)
    (candidate : s.slots[i].state.candidate = true) (small : s.slots[i].priority ≤ 7) :
    ∃ before after : List SlotId, s.candidates = before ++ i :: after
      ∧ (∀ j : SlotId, j ∈ before ↔ s.visitedBefore i j)
      ∧ ∀ k ∈ after, k ≠ i ∧ s.slots[k].priority ≤ s.slots[i].priority := by
  obtain ⟨above, below, priorities, mem_above, mem_below⟩ := priorities_split _ small
  obtain ⟨earlier, later, order⟩ := List.append_of_mem listed
  have apart : i ∉ earlier ∧ i ∉ later := by
    rw [order, List.nodup_append] at nodup
    exact ⟨fun mem => nodup.2.2 i mem i List.mem_cons_self rfl, (List.nodup_cons.mp nodup.2.1).1⟩
  have first (j : SlotId) : s.order.idxOf j < s.order.idxOf i ↔ j ∈ earlier := by
    rw [order, List.idxOf_append_of_notMem apart.1, List.idxOf_cons_self, Nat.add_zero]
    by_cases mem : j ∈ earlier
    · rw [List.idxOf_append_of_mem mem]
      exact iff_of_true (List.idxOf_lt_length_of_mem mem) mem
    · rw [List.idxOf_append_of_notMem mem]
      exact iff_of_false (by omega) mem
  have level : s.order.filter (s.waitsAt s.slots[i].priority)
      = earlier.filter (s.waitsAt s.slots[i].priority) ++ i :: later.filter (s.waitsAt s.slots[i].priority) := by
    rw [order, List.filter_append, List.filter_cons_of_pos ((s.waitsAt_iff _ i).mpr ⟨candidate, rfl⟩)]
  refine ⟨above.flatMap (fun q => s.order.filter (s.waitsAt q)) ++ earlier.filter (s.waitsAt s.slots[i].priority),
    later.filter (s.waitsAt s.slots[i].priority) ++ below.flatMap fun q => s.order.filter (s.waitsAt q),
    ?_, fun j => ?_, fun k mem => ?_⟩
  · rw [State.candidates_eq, priorities, List.flatMap_append, List.flatMap_cons, level]
    simp only [List.append_assoc, List.cons_append]
  · have listed (mem : j ∈ earlier) : j ∈ s.order := by rw [order]; exact List.mem_append_left _ mem
    simp only [List.mem_append, List.mem_flatMap, List.mem_filter, State.waitsAt_iff, mem_above,
      AnnState.candidate_iff, State.visitedBefore, first]
    constructor
    · rintro (⟨q, ⟨higher, le⟩, mem, waits, rfl⟩ | ⟨mem, waits, same⟩)
      · exact ⟨mem, waits, le, .inl higher⟩
      · exact ⟨listed mem, waits, same ▸ small, .inr ⟨same.symm, mem⟩⟩
    · rintro ⟨mem, waits, le, higher | ⟨same, mem'⟩⟩
      · exact .inl ⟨_, ⟨higher, le⟩, mem, waits, rfl⟩
      · exact .inr ⟨mem', waits, same.symm⟩
  · simp only [List.mem_append, List.mem_flatMap, List.mem_filter, State.waitsAt_iff] at mem
    obtain ⟨mem, -, same⟩ | ⟨q, low, -, -, rfl⟩ := mem
    · exact ⟨fun e => apart.2 (e ▸ mem), same.le⟩
    · have lower := mem_below _ low
      exact ⟨fun e => absurd lower (by rw [e]; exact lt_irrefl _), lower.le⟩

end Sys2Proof.Machine

/-! ## Chapter 2 proofs: the outcome of a pass for one candidate -/

namespace Sys2Proof.Machine

/-! ### Around one visit -/

/-- An owner yields unless it is PLAYING with no lower priority, or in none of the owners' states (R36). -/
theorem State.ownerYields_iff {u : State} {z : Zone} {priority : Nat} :
    u.ownerYields z priority = true ↔ ∀ a ∈ u.zones[z].owner, u.slots[handleSlot a].state = .stopping
      ∨ (u.slots[handleSlot a].state = .playing ∧ u.slots[handleSlot a].priority < priority) := by
  cases owner : u.zones[z].owner with
  | none => exact iff_of_true (by simp only [State.ownerYields, owner]) nofun
  | some a => simp only [State.ownerYields_some owner, Option.mem_def, Option.some.injEq, forall_eq']

/-- Whether a visit grants, told from the state in which the pass began (R35, R36). -/
theorem State.PassedOver.grants_iff {s : State} {seen : List SlotId} {p : Pass} (passed : s.PassedOver seen p)
    (i : SlotId) :
    p.Grants i ↔ s.effectiveMask i ≠ 0#4 ∧ ∀ z : Zone, inZones (s.effectiveMask i) z = true →
      (∀ j ∈ seen, inZones (s.effectiveMask j) z = false)
      ∧ ∀ a ∈ s.zones[z].owner, p.state.slots[handleSlot a].state = .stopping
          ∨ (p.state.slots[handleSlot a].state = .playing
            ∧ s.slots[handleSlot a].priority < s.slots[i].priority) := by
  have free (z : Zone) : inZones p.reserved z = false ↔ ∀ j ∈ seen, inZones (s.effectiveMask j) z = false := by
    rw [← Bool.not_eq_true, passed.reserved]
    simp only [not_exists, not_and, Bool.not_eq_true]
  simp only [Pass.Grants, passed.effectiveMask, free, State.ownerYields_iff, passed.owner, passed.priority]

/-- The pass from s around its visit to candidate i: p before the visit, `done` after the last. -/
structure State.PassAround (s : State) (i : SlotId) (before : List SlotId) (p done : Pass) : Prop where
  candidate : s.slots[i].state.candidate = true
  passed : s.PassedOver before p
  ended : s.PassedOver s.candidates done
  keepsGrant : s.StandsGranted i (p.visit i) → s.StandsGranted i done
  keepsLoss : s.StandsWithout i (p.visit i) → s.StandsWithout i done
  keepsPreempted : ∀ j v : SlotId, s.PreemptedBy j (p.visit i) v → s.PreemptedBy j done v
  spares : ∀ v : SlotId, (p.visit i).state.slots[v].state = .playing → s.slots[i].priority ≤ s.slots[v].priority →
    done.state.slots[v].state = .playing

/-- An owner that no candidate of a list exceeds in priority goes on PLAYING (R36). -/
theorem State.PassedOver.spares {s : State} {seen : List SlotId} {p : Pass} (passed : s.PassedOver seen p)
    {k v : SlotId} (candidate : s.slots[k].state.candidate = true) (least : s.slots[k].priority ≤ s.slots[v].priority)
    (playing : p.state.slots[v].state = .playing) : (p.visit k).state.slots[v].state = .playing := by
  have now := passed.candidate k candidate
  have other : v ≠ k := by
    rintro rfl
    rw [playing] at now
    cases now
  obtain same | displaced | preempted := (Pass.visit_visits now).others v other
  · rw [same]; exact playing
  · have granted := displaced.granted
    rw [playing] at granted
    cases granted
  · have lower := preempted.lower
    rw [passed.priority, passed.priority] at lower
    omega

/-- Every candidate has its visit in a pass (R35). -/
theorem State.passAround {s : State} {i : SlotId} (nodup : s.order.Nodup) (listed : i ∈ s.order)
    (candidate : s.slots[i].state.candidate = true) (small : s.slots[i].priority ≤ 7) :
    ∃ (before : List SlotId) (p : Pass), (∀ j : SlotId, j ∈ before ↔ s.visitedBefore i j)
      ∧ p = before.foldl Pass.visit s.passBegun
      ∧ s.PassAround i before p (s.candidates.foldl Pass.visit s.passBegun) := by
  obtain ⟨before, after, split, visited, later⟩ := State.candidates_split nodup listed candidate small
  have waits (k : SlotId) (mem : k ∈ s.candidates) : s.slots[k].state.candidate = true := State.candidate_of_mem mem
  have first : ∀ k ∈ before, s.slots[k].state.candidate = true := fun k mem =>
    waits k (by rw [split]; exact List.mem_append_left _ mem)
  have rest : ∀ k ∈ after, s.slots[k].state.candidate = true := fun k mem =>
    waits k (by rw [split]; exact List.mem_append_right _ (List.mem_cons_of_mem _ mem))
  have passed := (s.passBegun_passedOver.visits first (P := fun _ => True) (fun _ _ _ _ _ _ => trivial) trivial).1
  rw [List.nil_append] at passed
  refine ⟨before, _, visited, rfl, ?_⟩
  have ended := s.candidates_passedOver
  have done : s.candidates.foldl Pass.visit s.passBegun
      = after.foldl Pass.visit ((before.foldl Pass.visit s.passBegun).visit i) := by
    rw [split, List.foldl_append, List.foldl_cons]
  rw [done] at ended ⊢
  generalize before.foldl Pass.visit s.passBegun = p at passed ended ⊢
  have now := passed.visit candidate
  refine ⟨candidate, passed, ended, fun holds => ?_, fun holds => ?_, fun j v holds => ?_, fun v playing least => ?_⟩
  · exact (now.visits rest (P := s.StandsGranted i)
      (fun _ _ k mem passed holds => holds.visit passed (rest k mem) (later k mem).1.symm) holds).2
  · exact (now.visits rest (P := s.StandsWithout i)
      (fun _ _ k mem passed holds => holds.visit passed (rest k mem) (later k mem).1.symm candidate) holds).2
  · exact (now.visits rest (P := fun p => s.PreemptedBy j p v)
      (fun _ _ k mem passed holds => holds.visit passed (rest k mem)) holds).2
  · exact (now.visits rest (P := fun p => p.state.slots[v].state = .playing)
      (fun _ _ k mem passed holds => passed.spares (rest k mem) ((later k mem).2.trans least) holds) playing).2

section
variable {s : State} {i : SlotId} {before : List SlotId} {p done : Pass}

/-- A candidate that its visit does not grant ends the pass without claims (R39, R40). -/
theorem State.PassAround.refused (around : s.PassAround i before p done) (fresh : i ∉ before) (refused : ¬ p.Grants i) :
    s.StandsWithout i done := by
  refine around.keepsLoss ?_
  obtain ⟨record, gone, fewer⟩ := (Pass.visit_refused refused).2
  rw [around.passed.handleAt] at gone
  obtain same | ⟨granted, without, -⟩ := around.passed.waiting i around.candidate fresh
  · rw [same] at record gone
    exact ⟨record, gone⟩
  · refine ⟨record.trans ?_, fun _ z claims => without.gone granted z (fewer z _ claims)⟩
    rw [without.record]
    exact if_neg (Slot.withoutClaims_notGranted _)

/-- A candidate that its visit grants ends the pass with its grant (R37). -/
theorem State.PassAround.granted (around : s.PassAround i before p done) (same : p.state.slots[i] = s.slots[i])
    (grants : p.Grants i) : s.StandsGranted i done := by
  refine around.keepsGrant ?_
  have now := around.passed.candidate i around.candidate
  obtain ⟨visits, wins⟩ := Pass.visit_granted grants now
  refine ⟨?_, fun z mem => ⟨?_, ?_⟩⟩
  · rw [wins.record, same, around.passed.effectiveMask]
  · rw [wins.claims z (by rw [around.passed.effectiveMask]; exact mem), around.passed.handleAt]
  · rw [visits.reserved, inZones_or, around.passed.effectiveMask, mem, Bool.or_true]

/-- The PLAYING owners of the zones of a candidate that is granted are preempted, by it or by one before it
(R38, R40). -/
theorem State.PassAround.preempted (around : s.PassAround i before p done) (grants : p.Grants i) {z : Zone} {a : Handle}
    (mem : inZones (s.effectiveMask i) z = true) (owner : s.zones[z].owner = some a)
    (playing : s.slots[handleSlot a].state = .playing) :
    ∃ j : SlotId, (j ∈ before ∨ j = i) ∧ s.PreemptedBy j done (handleSlot a) := by
  obtain same | ⟨j, earlier, preempted⟩ := around.passed.playing _ playing
  · have now := around.passed.candidate i around.candidate
    have wins := (Pass.visit_granted grants now).2
    have at_ := wins.owners z a (by rw [around.passed.effectiveMask]; exact mem)
      (by rw [around.passed.owner]; exact owner) (by rw [same]; exact playing)
    exact ⟨i, .inr rfl, around.keepsPreempted i _ (around.passed.preempts at_ same)⟩
  · exact ⟨j, .inl earlier, around.keepsPreempted j _ (preempted.visit around.passed around.candidate)⟩

end

/-! ### The outcome in the state that the pass leaves -/

section
variable {s t : State} {i : SlotId} {done : Pass} (ends : done.Finishes t)
include ends

theorem State.StandsWithout.outcome (stands : s.StandsWithout i done) :
    t.slots[i] = s.slots[i].withoutClaims
      ∧ (s.slots[i].state = .granted → ∀ z : Zone, t.zones[z].claimant ≠ some (s.handleAt i)) := by
  refine ⟨(ends.notGranted ?_).trans stands.record, fun granted z => ?_⟩
  · rw [stands.record]; exact Slot.withoutClaims_notGranted _
  · rw [ends.zones]; exact stands.gone granted z

theorem State.StandsGranted.outcome (stands : s.StandsGranted i done) :
    t.slots[i].state = .granted ∧ t.slots[i].effZones = s.effectiveMask i
      ∧ (t.slots[i].startDue = true ↔ s.slots[i].startDue = true ∨ t.zonesReady (s.effectiveMask i))
      ∧ ∀ z : Zone, inZones (s.effectiveMask i) z = true → t.zones[z].claimant = some (s.handleAt i) := by
  rw [ends.record, stands.record]
  refine ⟨rfl, rfl, ?_, fun z mem => ?_⟩
  · rw [Bool.or_eq_true, State.readyToStart_iff, stands.record]
    simp only [true_and, State.zonesReady, ends.zones, ends.stages]
  · rw [ends.zones]; exact (stands.claims z mem).1

theorem State.PreemptedBy.outcome {j v : SlotId} (preempted : s.PreemptedBy j done v) :
    t.slots[v].state = .stopping ∧ t.slots[v].stop = some ⟨.preempted, false, some (s.handleAt j)⟩
      ∧ ∀ e ∈ s.slots[v].engine, t.engines[e].state = .fading ∧ t.engines[e].fadePos = 0 := by
  have same := ends.notGranted (j := v) (by rw [preempted.record]; nofun)
  rw [same, ends.engines, preempted.record]
  exact ⟨rfl, rfl, preempted.fading⟩

end

/-! ### The two clauses -/

/-- A zone set that holds the enabled zones of a zone mask is the effective mask (R35). -/
theorem State.effectiveMask_eq {s : State} {i : SlotId} {mask : ZoneSet}
    (at_ : ∀ z : Zone, inZones mask z = (inZones s.slots[i].zoneMask z && s.stages[z].enabled)) :
    mask = s.effectiveMask i :=
  zoneSet_ext fun z => (at_ z).trans (s.inZones_effectiveMask i z).symm

/-- A candidate that wants a zone of one visited before it is refused (R36, R40). -/
theorem State.PassAround.reserved {s : State} {i j : SlotId} {before : List SlotId} {p done : Pass}
    (around : s.PassAround j before p done) (earlier : i ∈ before) {z : Zone}
    (mine : inZones (s.effectiveMask i) z = true) (theirs : inZones s.slots[j].zoneMask z = true) : ¬ p.Grants j := by
  intro grants
  obtain ⟨-, free⟩ := (around.passed.grants_iff j).mp grants
  have enabled : s.stages[z].enabled = true := by
    rw [State.inZones_effectiveMask, Bool.and_eq_true] at mine
    exact mine.2
  have taken := (free z (by rw [State.inZones_effectiveMask, theirs, enabled]; rfl)).1 i earlier
  exact Bool.false_ne_true (taken.symm.trans mine)

section
variable {s t : State} {i : SlotId} {before : List SlotId} {p done : Pass} (law : s.ZoneLaw)
  (around : s.PassAround i before p done)
include law around

/-- No candidate before has displaced one whose zones none of them wants (R32, R37). -/
theorem State.PassAround.undisturbed (fresh : i ∉ before) (grants : p.Grants i) : p.state.slots[i] = s.slots[i] := by
  obtain ⟨claims, enabled⟩ := s.zoneLaw_iff.mp law
  obtain ⟨-, free⟩ := (around.passed.grants_iff i).mp grants
  refine (around.passed.waiting i around.candidate fresh).resolve_right ?_
  rintro ⟨granted, -, k, earlier, z, mine, theirs⟩
  have wanted := zoneSet_within_iff.mp (claims.mask i) z mine
  have claimed := (claims.claims_iff id granted z).mp mine
  have on := enabled z (by rw [claimed]; nofun)
  have apart := (free z (by rw [State.inZones_effectiveMask, wanted, on]; rfl)).1 k earlier
  exact Bool.false_ne_true (apart.symm.trans theirs)

/-- The visit grants exactly where `passGrants` says so of the states before and after the pass. An owner that was PLAYING
and is STOPPING after the pass yields at the visit: one preempted before it is STOPPING by then, and no later candidate
has a higher priority (R36, R38). -/
theorem State.PassAround.grants_iff (ends : done.Finishes t) (visited : ∀ j : SlotId, j ∈ before ↔ s.visitedBefore i j) :
    p.Grants i ↔ s.passGrants t i (s.effectiveMask i) := by
  obtain ⟨claims, -⟩ := s.zoneLaw_iff.mp law
  have enabled {z : Zone} (mem : inZones (s.effectiveMask i) z = true) : s.stages[z].enabled = true := by
    rw [State.inZones_effectiveMask, Bool.and_eq_true] at mem
    exact mem.2
  have stopped {v : SlotId} (stopping : s.slots[v].state = .stopping) (q : Pass) {seen : List SlotId}
      (passed : s.PassedOver seen q) : q.state.slots[v].state = .stopping := by
    rw [passed.apart v (.inr (.inr stopping))]
    exact stopping
  constructor
  · intro grants
    obtain ⟨some_, free⟩ := (around.passed.grants_iff i).mp grants
    refine ⟨some_, fun z mem => ⟨fun j earlier => ?_, fun a owner => ?_⟩⟩
    · have apart := (free z mem).1 j ((visited j).mpr earlier)
      rwa [State.inZones_effectiveMask, enabled mem, Bool.and_true] at apart
    · obtain ⟨-, playing | stopping⟩ := claims.owner_at owner rfl
      · obtain ⟨j, -, preempted⟩ := around.preempted grants mem owner playing
        exact .inl (preempted.outcome ends).1
      · have still := stopped stopping done around.ended
        rw [ends.notGranted (by rw [still]; nofun)]
        exact .inl still
  · rintro ⟨some_, takeable⟩
    refine (around.passed.grants_iff i).mpr ⟨some_, fun z mem => ⟨fun j earlier => ?_, fun a owner => ?_⟩⟩
    · rw [State.inZones_effectiveMask, (takeable z mem).1 j ((visited j).mp earlier), Bool.false_and]
    · have gone := (takeable z mem).2 a owner
      obtain ⟨-, playing | stopping⟩ := claims.owner_at owner rfl
      · obtain same | ⟨j, -, preempted⟩ := around.passed.playing _ playing
        · have now : p.state.slots[handleSlot a].state = .playing := by rw [same]; exact playing
          refine .inr ⟨now, ?_⟩
          obtain gone | ⟨-, lower⟩ := gone
          · by_contra higher
            have least := Nat.not_lt.mp higher
            have still := around.spares _ (around.passed.spares around.candidate least now) least
            rw [ends.notGranted (by rw [still]; nofun), still] at gone
            cases gone
          · exact lower
        · exact .inl (by rw [preempted.record])
      · exact .inl (stopped stopping p around.passed)

end

/-- The preemptor of an owner is the granted candidate where none before it wants a zone of the owner (R38). -/
theorem State.PreemptedBy.preemptor {s : State} {i j : SlotId} {before : List SlotId} {done : Pass} (law : s.ZoneLaw)
    (visited : ∀ j : SlotId, j ∈ before ↔ s.visitedBefore i j) {z : Zone} {a : Handle}
    (owner : s.zones[z].owner = some a) (who : j ∈ before ∨ j = i)
    (preempted : s.PreemptedBy j done (handleSlot a))
    (alone : ∀ (k : SlotId) (w : Zone), s.visitedBefore i k → s.zones[w].owner = some a →
      inZones s.slots[k].zoneMask w = false) : j = i := by
  obtain ⟨claims, -⟩ := s.zoneLaw_iff.mp law
  refine who.resolve_left fun earlier => ?_
  obtain ⟨w, b, mem, owner', at_⟩ := preempted.meets
  obtain rfl : b = a := (claims.owner_at owner' at_).1.trans (claims.owner_at owner rfl).1.symm
  rw [State.inZones_effectiveMask, alone j w ((visited j).mp earlier) owner', Bool.false_and] at mem
  cases mem

/-- Settles O38: the first candidate is visited in the state in which the pass begins; any candidate is granted at its
visit exactly where `passGrants` holds, and no later visit touches its outcome. -/
theorem passGrantsInOrder : Obligations.PassGrantsInOrder := by
  refine ⟨fun s i mask up pending nodup listed waits small first at_ => ?_,
    fun s i mask up pending nodup law listed waits small at_ => ?_⟩
  · obtain rfl := State.effectiveMask_eq at_
    have candidate := (AnnState.candidate_iff _).mpr waits
    obtain ⟨t, row, ends⟩ := State.takePass_finishes up pending
    obtain ⟨before, p, visited, begun, around⟩ := State.passAround nodup listed candidate small
    have none_before : before = [] := List.eq_nil_iff_forall_not_mem.mpr fun j mem => by
      obtain ⟨listed', waits', -, order⟩ := (visited j).mp mem
      by_cases here : j = i
      · subst here; omega
      · have := first j listed' here waits'
        omega
    subst none_before begun
    have grants := around.passed.grants_iff i
    refine ⟨t, row, fun some_ yields => ?_, fun blocked => ?_, fun j listed' other waits' ⟨z, mine, theirs⟩ => ?_⟩
    · have grants := grants.mpr ⟨some_, fun z mem => ⟨fun _ mem => (nomatch mem), yields z mem⟩⟩
      obtain ⟨granted, effZones, due, claims⟩ := (around.granted rfl grants).outcome ends
      refine ⟨granted, effZones, due, claims, fun z mem a owner playing => ?_⟩
      obtain ⟨j, who, preempted⟩ := around.preempted grants mem owner playing
      obtain rfl : j = i := who.resolve_left List.not_mem_nil
      exact preempted.outcome ends
    · refine (around.refused List.not_mem_nil fun granted => ?_).outcome ends
      obtain ⟨some_, takeable⟩ := grants.mp granted
      obtain empty | ⟨z, mem, a, owner, busy, least⟩ := blocked
      · exact some_ empty
      · obtain stopping | ⟨playing, lower⟩ := (takeable z mem).2 a owner
        · exact busy stopping
        · exact absurd lower (Nat.not_lt.mpr (least playing))
    · have order := first j listed' other waits'
      obtain ⟨before', p', visited', -, around'⟩ :=
        State.passAround nodup listed' ((AnnState.candidate_iff _).mpr waits') (by omega)
      have earlier : i ∈ before' := (visited' i).mpr ⟨listed, waits, small, by omega⟩
      have fresh : j ∉ before' := fun mem => by
        obtain ⟨-, -, -, itself⟩ := (visited' j).mp mem
        omega
      exact (around'.refused fresh (around'.reserved earlier mine theirs)).outcome ends
  · obtain rfl := State.effectiveMask_eq at_
    have candidate := (AnnState.candidate_iff _).mpr waits
    obtain ⟨t, row, ends⟩ := State.takePass_finishes up pending
    obtain ⟨before, p, visited, -, around⟩ := State.passAround nodup listed candidate small
    have fresh : i ∉ before := fun mem => by
      obtain ⟨-, -, -, itself⟩ := (visited i).mp mem
      omega
    have grants := around.grants_iff law ends visited
    refine ⟨t, row, fun won => ?_, fun lost => (around.refused fresh (grants.not.mpr lost)).outcome ends⟩
    have won := grants.mpr won
    obtain ⟨granted, effZones, due, claims⟩ := (around.granted (around.undisturbed law fresh won) won).outcome ends
    refine ⟨granted, effZones, due, fun z mem => ⟨claims z mem, fun a owner playing => ?_⟩⟩
    obtain ⟨j, who, preempted⟩ := around.preempted won mem owner playing
    obtain ⟨stopping, stop, fading⟩ := preempted.outcome ends
    refine ⟨stopping, fading, s.handleAt j, stop, fun alone => ?_⟩
    rw [preempted.preemptor law visited owner who alone]

end Sys2Proof.Machine

/-! ## What the play side does in one frame, as single moves -/

namespace Sys2Proof.Machine

/-- One move of the play side within a frame (R68 to R78). -/
inductive Play.Move : Play → Play → Prop
  | leave (p : Play) : Move p p.leave
  | passMark (p : Play) (value : Byte) : Move p (p.passMark value)
  | enterClip (p : Play) : Move p p.enterClip
  | clip (p : Play) (entry : ClipEntry) (trim : Option Nat) : Move p (p.clipFrame entry trim).play
  | resume (p : Play) : Move p p.resume
  | countFault (p : Play) (kind : FaultKind) : Move p (p.countFault kind)
  | formatFault (p : Play) (clipLength : Nat) : Move p (p.formatFault clipLength)
  | leaveRepeatGap (p : Play) :
      Move p (p.withEng { p.eng with play := { p.eng.play with stage := .segment }, progress := .fresh })
  | gap (p : Play) (frames : Nat) (dec : Decoder) :
      Move p (p.withEng { p.eng with framesRemaining := frames, dec := dec, progress := .begun })

/-- What every move keeps, the play side's way through one frame keeps (R68). -/
theorem playLoop_induction {P : Play → Prop} (keep : ∀ p q : Play, p.Move q → P p → P q) (d : Directory) :
    ∀ (fuel : Nat) (p : Play), P p → P (playLoop d fuel p).1
  | 0, _, h => h
  | fuel + 1, p, h => by
    have go (q : Play) (h : P q) : P (playLoop d fuel q).1 := playLoop_induction keep d fuel q h
    have leave (q : Play) (h : P q) : P (playLoop d fuel q.leave).1 := go _ (keep _ _ (.leave q) h)
    unfold playLoop
    split
    · exact h
    · exact h
    · split
      · exact go _ (keep _ _ (.leaveRepeatGap p) h)
      · exact keep _ _ (.gap p _ _) h
    · split
      · exact h
      · exact leave _ (keep _ _ (.passMark p _) h)
      · split
        · exact leave _ h
        · split
          · exact keep _ _ (.gap p _ _) h
          · exact keep _ _ (.gap p _ _) h
      · next n trim fault _ =>
        have entered := keep _ _ (.enterClip p) h
        simp only
        split
        · have counted := keep _ _ (.countFault _ .headerMismatch) (keep _ _ (.resume _) entered)
          split
          · exact counted
          · exact leave _ counted
        · have clip := keep _ _ (.clip _ (d.entry n) trim) entered
          split
          · next out => rw [out] at clip; exact clip
          · next out => rw [out] at clip; exact leave _ clip
          · next out =>
            rw [out] at clip
            have counted := keep _ _ (.formatFault _ (d.entry n).length) clip
            split
            · exact counted
            · exact leave _ counted

end Sys2Proof.Machine

/-! ## The law of the rings, for one engine -/

namespace Sys2Proof.Machine

/-- What the law of the rings says of one engine (R60, R61, R146). -/
structure Engine.Fits (g : Engine) : Prop where
  room : g.ring.length + g.reserved ≤ 512
  burst : g.reserved ≤ 64
  unasked : g.request = none → g.reserved = 0
  asked : ∀ r ∈ g.request, g.ring.length ≤ 448 ∧ r.count ≤ 64 ∧ (r.granted = false ∨ r.kind = .header → g.reserved = 0)

/-- What the law of the rings says of the port: its bursts have at most 64 data bytes (R61). -/
def Port.Fits (p : Port) : Prop := (∀ b ∈ p.burst, b.count ≤ 64) ∧ ∀ b ∈ p.arriving, b.count ≤ 64

/-- What the law of the rings says of the loader's request (R61, R108). -/
def Directory.Fits (d : Directory) : Prop := ∀ p ∈ d.progress, ∀ r ∈ p.request, r.count ≤ 64

/-- The law of the rings, record by record. -/
theorem State.ringLaw_iff (s : State) : s.RingLaw ↔ (∀ e : EngineId, s.engines[e].Fits) ∧ s.port.Fits ∧ s.dir.Fits := by
  have engine (g : Engine) : g.Fits ↔ g.ring.length + g.reserved ≤ 512 ∧ g.reserved ≤ 64
      ∧ (g.request = none → g.reserved = 0)
      ∧ ∀ r ∈ g.request, g.ring.length ≤ 448 ∧ r.count ≤ 64
          ∧ (r.granted = false ∨ r.kind = .header → g.reserved = 0) :=
    ⟨fun ⟨room, burst, unasked, asked⟩ => ⟨room, burst, unasked, asked⟩,
      fun ⟨room, burst, unasked, asked⟩ => ⟨room, burst, unasked, asked⟩⟩
  simp only [engine, Port.Fits, Directory.Fits, and_assoc]
  rfl

section Fits
variable {g x : Engine}

/-- Bytes leave the ring at most; reserved count and request stand. -/
theorem Engine.Fits.drained (h : g.Fits) (ring : x.ring.length ≤ g.ring.length) (reserved : x.reserved = g.reserved)
    (request : x.request = g.request) : x.Fits where
  room := by have := h.room; omega
  burst := reserved ▸ h.burst
  unasked none_ := reserved ▸ h.unasked (request ▸ none_)
  asked r stands := by
    obtain ⟨few, small, free⟩ := h.asked r (request ▸ stands)
    exact ⟨ring.trans few, small, reserved ▸ free⟩

/-- Without a request nothing is reserved. -/
theorem Engine.Fits.of_unasked (ring : g.ring.length ≤ 512) (reserved : g.reserved = 0) (request : g.request = none) :
    g.Fits where
  room := by omega
  burst := by omega
  unasked _ := reserved
  asked r stands := by rw [request] at stands; cases stands

/-- A request stands where 64 bytes were free for it. -/
theorem Engine.Fits.of_asked {r : BurstRequest} (ring : g.ring.length ≤ 448) (reserved : g.reserved ≤ 64)
    (request : g.request = some r) (small : r.count ≤ 64) (free : r.granted = false ∨ r.kind = .header → g.reserved = 0) :
    g.Fits where
  room := by omega
  burst := reserved
  unasked none_ := by rw [request] at none_; cases none_
  asked r' stands := by
    obtain rfl := Option.some.inj (request.symm.trans stands)
    exact ⟨ring, small, free⟩

theorem Engine.idle_fits (epoch : BitVec 8) : (Engine.idle epoch).Fits := .of_unasked (Nat.zero_le _) rfl rfl

/-- A request that is not granted is withdrawn; nothing was reserved for it (R67). -/
theorem Engine.Fits.withdrawUngranted (h : g.Fits) : g.withdrawUngranted.Fits := by
  unfold Engine.withdrawUngranted
  split
  · next r stands =>
    split
    · exact h
    · next waits =>
      obtain ⟨-, -, free⟩ := h.asked r stands
      exact .of_unasked ((Nat.le_add_right _ _).trans h.room) (free (.inl (Bool.eq_false_iff.mpr waits))) rfl
  · exact h

theorem Engine.Fits.advanceFade (h : g.Fits) : g.advanceFade.Fits := by
  have raised : ({ g with fadePos := g.fadePos + 1 } : Engine).Fits := h.drained le_rfl rfl rfl
  simp only [Engine.advanceFade]
  split
  · exact raised.withdrawUngranted
  · exact raised

/-- The request of a faulted clip is withdrawn, or its data is to be dropped (R74). -/
theorem Engine.Fits.kept (h : g.Fits) (drop : Bool) : ({ g with request := keptRequest drop g.request } : Engine).Fits := by
  cases stands : g.request with
  | none => exact .of_unasked ((Nat.le_add_right _ _).trans h.room) (h.unasked stands) rfl
  | some r =>
    obtain ⟨few, small, free⟩ := h.asked r stands
    cases granted : r.granted with
    | true =>
      exact .of_asked (r := { r with dropped := r.dropped || drop }) few h.burst (by rw [keptRequest, if_pos granted])
        small free
    | false =>
      exact .of_unasked (few.trans (by decide)) (free (.inl granted)) (by simp [keptRequest, granted])

/-- A grant reserves what the burst brings (R146). -/
theorem Engine.Fits.granted (h : g.Fits) {r : BurstRequest} (stands : g.request = some r) : (g.granted r).Fits := by
  obtain ⟨few, small, free⟩ := h.asked r stands
  unfold Engine.granted
  cases kind : r.kind with
  | header => exact .of_asked few h.burst rfl small fun _ => free (.inr kind)
  | data => exact .of_asked few small rfl small (by simp)

end Fits

/-! ### The fetch side -/

/-- The conditions under which the fetch side makes a request (R61). -/
theorem Engine.mayRequest_iff (g : Engine) :
    g.mayRequest = true ↔ g.binding.isSome = true ∧ g.request = none ∧ g.ring.length + g.reserved ≤ 448
      ∧ (g.fetch.phase = .header ∨ g.fetch.phase = .data) ∧ g.play.stage ≠ .halted ∧ g.fadePos < 256 := by
  have room : 64 ≤ g.freeSpace ↔ g.ring.length + g.reserved ≤ 448 := by unfold Engine.freeSpace; omega
  simp [Engine.mayRequest, room, and_assoc]

/-- A request is of at most 64 bytes (R62). -/
theorem Bound.nextRequest_count (b : Bound) (d : Directory) : (b.nextRequest d).count ≤ 64 := by
  unfold Bound.nextRequest
  simp only
  split
  · exact Nat.min_le_left _ _
  · simp

/-- A request is made where 64 bytes are free (R61). -/
theorem Bound.considerRequest_fits {b : Bound} (h : b.eng.Fits) (d : Directory) : (b.considerRequest d).eng.Fits := by
  unfold Bound.considerRequest
  split
  · next may =>
    obtain ⟨-, none_, room, -⟩ := (Engine.mayRequest_iff _).mp may
    have few : b.eng.ring.length ≤ 448 := (Nat.le_add_right _ _).trans room
    exact .of_asked few h.burst rfl (b.nextRequest_count d) fun _ => h.unasked none_
  · exact h

theorem Bound.retryFetch_fits {b : Bound} (h : b.eng.Fits) : b.retryFetch.eng.Fits := by
  unfold Bound.retryFetch
  split
  · exact h.drained le_rfl rfl rfl
  · exact h

/-- The data of a burst joins the ring, which has room for it (R61, R66). -/
theorem Bound.takeArrival_fits {b : Bound} (h : b.eng.Fits) (d : Directory) {data : List Byte} (small : data.length ≤ 64) :
    (b.takeArrival d data).eng.Fits := by
  unfold Bound.takeArrival
  split
  · next r stands =>
    obtain ⟨few, -, free⟩ := h.asked r stands
    refine Bound.considerRequest_fits ?_ d
    split
    · next kind =>
      unfold Bound.takeHeader
      split <;> exact .of_unasked (few.trans (by decide)) (free (.inr kind)) rfl
    · have joined : (b.eng.ring ++ data).length ≤ 512 := by rw [List.length_append]; omega
      simp only [Bound.takeData]
      split <;> exact .of_unasked joined rfl rfl
    · exact .of_unasked (few.trans (by decide)) rfl rfl
  · exact h

theorem bindEngine_fits (d : Directory) (e : Engine) (a : Slot) (h : Handle) : (bindEngine d e a h).eng.Fits :=
  Bound.considerRequest_fits (.of_unasked (Nat.zero_le _) rfl rfl) d

/-! ### The play side -/

theorem Play.leave_fits {p : Play} (h : p.eng.Fits) : p.leave.eng.Fits := by
  have retried (q : Play) (hq : q.eng.Fits) :
      ({ q with bound := q.bound.retryFetch } : Play).writePosition.eng.Fits := by
    unfold Play.writePosition
    split <;> exact Bound.retryFetch_fits hq
  simp only [Play.leave]
  split
  · exact retried _ (h.drained le_rfl rfl rfl)
  · split
    · exact retried _ (h.drained le_rfl rfl rfl)
    · exact h.drained le_rfl rfl rfl

theorem Play.countFault_fits {p : Play} (h : p.eng.Fits) (kind : FaultKind) : (p.countFault kind).eng.Fits := by
  have halted : p.eng.withdrawUngranted.Fits := h.withdrawUngranted
  unfold Play.countFault
  split
  · exact h
  · simp only
    split
    · split <;> exact halted.drained le_rfl rfl rfl
    · exact h

/-- The rest of a faulted clip leaves the ring, and its request is withdrawn or its data is to be dropped (R74). -/
theorem Play.formatFault_fits {p : Play} (h : p.eng.Fits) (clipLength : Nat) : (p.formatFault clipLength).eng.Fits := by
  obtain ⟨f, request, l, eq, leaves⟩ := p.formatFault_eq clipLength
  rw [eq]
  have fits : ({ p.eng with request := request } : Engine).Fits := by
    cases played : decide p.eng.fetchesPlayed with
    | false => rw [(leaves.elsewhere played).1]; exact h
    | true => rw [(leaves.inside played).1]; exact h.kept true
  refine Play.countFault_fits ?_ _
  exact fits.drained (List.drop_sublist _ _).length_le rfl rfl

theorem Play.clipFrame_fits {p : Play} (h : p.eng.Fits) (entry : ClipEntry) (trim : Option Nat) :
    (p.clipFrame entry trim).play.eng.Fits := by
  simp only [Play.clipFrame]
  split
  · exact h.drained le_rfl rfl rfl
  · split
    · exact h.drained le_rfl rfl rfl
    · split
      · simp only [ClipFrame.play, Play.stall]
        split <;> exact h.drained le_rfl rfl rfl
      · exact h.drained le_rfl rfl rfl
      · refine h.drained ?_ rfl rfl
        simp [ClipFrame.play, Play.resume, Play.withEng, Play.eng]

/-- No move of the play side makes a ring too full (R60). -/
theorem Play.Move.fits {p q : Play} (move : p.Move q) (h : p.eng.Fits) : q.eng.Fits := by
  cases move with
  | leave => exact Play.leave_fits h
  | passMark value => unfold Play.passMark; split <;> exact h
  | enterClip => unfold Play.enterClip; split <;> exact h.drained le_rfl rfl rfl
  | clip entry trim => exact Play.clipFrame_fits h entry trim
  | resume => exact h.drained le_rfl rfl rfl
  | countFault kind => exact Play.countFault_fits h kind
  | formatFault clipLength => exact Play.formatFault_fits h clipLength
  | leaveRepeatGap => exact h.drained le_rfl rfl rfl
  | gap frames dec => exact h.drained le_rfl rfl rfl

theorem Play.run_fits (d : Directory) {p : Play} (h : p.eng.Fits) : (p.run d).1.eng.Fits :=
  playLoop_induction (P := fun q => q.eng.Fits) (fun _ _ move => move.fits) d _ p h

theorem Play.frame_fits (d : Directory) {p : Play} (h : p.eng.Fits) : (p.frame d).1.eng.Fits := by
  unfold Play.frame
  split
  · exact h
  · split
    · exact Play.run_fits d (h.drained le_rfl rfl rfl)
    · exact h
  · exact Play.run_fits d h
  · exact Play.run_fits d h
  · split
    · exact h
    · split
      · exact h.advanceFade
      · exact (Play.run_fits d (p := p.withEng { p.eng with fadePriming := false }) (h.drained le_rfl rfl rfl)).advanceFade

theorem State.engineFrame_fits {s : State} {e : EngineId} (h : s.engines[e].Fits) : (s.engineFrame e).eng.Fits := by
  cases bound : s.engines[e].binding with
  | none =>
    simp only [Fin.getElem_fin] at bound
    simpa [State.engineFrame, bound] using h
  | some a =>
    rw [State.engineFrame_eq bound]
    exact Bound.considerRequest_fits (Play.frame_fits s.dir (p := s.playAt e a) h) s.dir

end Sys2Proof.Machine

/-! ## The law of the rings under the host's commands and bytes -/

namespace Sys2Proof.Machine

/-! ### Operations on one record -/

/-- A step apart from engines, bursts and the loader's progress. -/
theorem State.RingLaw.of_frame {s t : State} (law : s.RingLaw) (engines : t.engines = s.engines)
    (burst : t.port.burst = s.port.burst) (arriving : t.port.arriving = s.port.arriving)
    (progress : t.dir.progress = s.dir.progress) : t.RingLaw := by
  unfold State.RingLaw
  rw [engines, burst, arriving, progress]
  exact law

/-- The law for one engine. -/
theorem State.RingLaw.fits {s : State} (law : s.RingLaw) (e : EngineId) : s.engines[e].Fits := (s.ringLaw_iff.mp law).1 e

/-- The law for the port. -/
theorem State.RingLaw.port {s : State} (law : s.RingLaw) : s.port.Fits := (s.ringLaw_iff.mp law).2.1

/-- The law for the directory. -/
theorem State.RingLaw.dir {s : State} (law : s.RingLaw) : s.dir.Fits := (s.ringLaw_iff.mp law).2.2

theorem State.RingLaw.setEngine {s : State} (law : s.RingLaw) {e : EngineId} {x : Engine} (fits : x.Fits) :
    (s.setEngine e x).RingLaw := by
  obtain ⟨engines, rest⟩ := s.ringLaw_iff.mp law
  refine (State.ringLaw_iff _).mpr ⟨fun f => ?_, rest⟩
  by_cases same : f = e
  · subst same; rw [State.setEngine_get_self]; exact fits
  · rw [State.setEngine_get_other _ _ _ _ same]; exact engines f

theorem State.RingLaw.setPort {s : State} (law : s.RingLaw) {x : Port} (fits : x.Fits) : (s.setPort x).RingLaw := by
  obtain ⟨engines, -, dir⟩ := s.ringLaw_iff.mp law
  exact (State.ringLaw_iff _).mpr ⟨engines, fits, dir⟩

theorem State.RingLaw.setDir {s : State} (law : s.RingLaw) {x : Directory} (fits : x.Fits) : (s.setDir x).RingLaw := by
  obtain ⟨engines, port, -⟩ := s.ringLaw_iff.mp law
  exact (State.ringLaw_iff _).mpr ⟨engines, port, fits⟩

/-- A directory without a load asks for nothing. -/
theorem Directory.Fits.of_none {d : Directory} (h : d.progress = none) : d.Fits := by simp [Directory.Fits, h]

/-- A directory whose load asks for at most 64 bytes. -/
theorem Directory.Fits.of_request {d : Directory} {p : LoadProgress} {r : LoaderRequest} (progress : d.progress = some p)
    (request : p.request = some r) (small : r.count ≤ 64) : d.Fits := by
  simp [Directory.Fits, progress, request, small]

/-! ### Claims, owners and bindings -/

theorem State.RingLaw.settleIdle {s : State} (law : s.RingLaw) (z : Zone) : (s.settleIdle z).RingLaw := by
  rw [State.settleIdle_eq]
  exact law.of_frame rfl rfl rfl rfl

theorem State.RingLaw.startCheck {s : State} (law : s.RingLaw) (i : SlotId) : (s.startCheck i).RingLaw := by
  rw [State.startCheck_eq]
  exact law.of_frame rfl rfl rfl rfl

theorem State.RingLaw.startCheckZone {s : State} (law : s.RingLaw) (z : Zone) : (s.startCheckZone z).RingLaw := by
  obtain ⟨slots, eq, -⟩ := s.startCheckZone_frame z
  rw [eq]
  exact law.of_frame rfl rfl rfl rfl

theorem State.RingLaw.withdrawClaims {s : State} (law : s.RingLaw) (h : Handle) : (s.withdrawClaims h).RingLaw := by
  obtain ⟨zones, stages, eq, -⟩ := s.withdrawClaims_eq h
  rw [eq]
  exact law.of_frame rfl rfl rfl rfl

theorem State.RingLaw.claimLoss {s : State} (law : s.RingLaw) (i : SlotId) : (s.claimLoss i).RingLaw :=
  (law.withdrawClaims (s.handleAt i)).of_frame rfl rfl rfl rfl

/-- An engine that is unbound has an empty ring and no request (R58). -/
theorem State.RingLaw.giveUp {s : State} (law : s.RingLaw) (i : SlotId) : (s.giveUp i).RingLaw := by
  obtain ⟨zones, stages, slots, eq, -⟩ := s.releaseZones_eq (s.handleAt i)
  have released : (s.releaseZones (s.handleAt i)).RingLaw := by
    rw [eq]; exact law.of_frame rfl rfl rfl rfl
  unfold State.giveUp
  generalize s.releaseZones (s.handleAt i) = t at released
  have unbound : (t.unbindOf i).RingLaw := by
    unfold State.unbindOf
    split
    · exact released.setEngine (Engine.idle_fits _)
    · exact released
  exact unbound.of_frame rfl rfl rfl rfl

theorem State.RingLaw.freeSlot {s : State} (law : s.RingLaw) (i : SlotId) (o : AnnOutcome) : (s.freeSlot i o).RingLaw :=
  law.of_frame rfl rfl rfl rfl

theorem State.RingLaw.requeue {s : State} (law : s.RingLaw) (i : SlotId) (a : RequeueAction) (by_ : Byte) :
    (s.requeue i a by_).RingLaw := law.of_frame rfl rfl rfl rfl

theorem State.RingLaw.requestPass {s : State} (law : s.RingLaw) : s.requestPass.RingLaw := law.of_frame rfl rfl rfl rfl

theorem State.RingLaw.endFade {s : State} (law : s.RingLaw) (i : SlotId) : (s.endFade i).RingLaw := by
  refine State.RingLaw.requestPass ?_
  rcases (s.giveUp i).dispose_cases i with ⟨o, eq⟩ | ⟨a, by_, eq⟩ <;> rw [eq]
  · exact (law.giveUp i).freeSlot i o
  · exact (law.giveUp i).requeue i a by_

/-- An engine that enters FADING keeps its ring and its request (R79). -/
theorem State.RingLaw.enterStopping {s : State} (law : s.RingLaw) (i : SlotId) (why : Stopping) :
    (s.enterStopping i why).RingLaw := by
  unfold State.enterStopping
  simp only
  split
  · next e _ =>
    have fading : (s.setEngine e s.engines[e].enterFading).RingLaw :=
      law.setEngine ((law.fits e).drained le_rfl rfl rfl)
    exact fading.of_frame rfl rfl rfl rfl
  · exact law.of_frame rfl rfl rfl rfl

/-! ### The commands -/

/-- Whatever the parameters, the body of a command keeps the law of the rings. -/
def Body.KeepsRings (body : Body) : Prop := ∀ (p : Params) (s : State), s.RingLaw → (body p s).1.RingLaw

theorem annOpenBody_keepsRings : annOpenBody.KeepsRings := by
  intro p s law
  unfold annOpenBody
  repeat' split
  all_goals exact law.of_frame rfl rfl rfl rfl

theorem annAppendBody_keepsRings : annAppendBody.KeepsRings := by
  intro p s law
  unfold annAppendBody
  simp only
  repeat' split
  all_goals exact law.of_frame rfl rfl rfl rfl

theorem annSubmitBody_keepsRings : annSubmitBody.KeepsRings := by
  intro p s law
  unfold annSubmitBody
  simp only
  repeat' split
  all_goals exact law.of_frame rfl rfl rfl rfl

theorem annCancelBody_keepsRings : annCancelBody.KeepsRings := by
  intro p s law
  unfold annCancelBody
  split
  · exact law
  · next i _ =>
    split
    · exact law
    · exact law.freeSlot i _
    · exact (law.freeSlot i _).requestPass
    · exact ((law.withdrawClaims _).freeSlot i _).requestPass
    · exact (law.enterStopping i _).requestPass
    · unfold cancelStopping
      split <;> exact law.of_frame rfl rfl rfl rfl

theorem annStatusBody_keepsRings : annStatusBody.KeepsRings := by
  intro p s law
  unfold annStatusBody
  split <;> exact law

/-- The last zone of an announcement that is disabled ends its engine's binding (R53). -/
theorem State.RingLaw.ownerLosesZone {s : State} (law : s.RingLaw) (i : SlotId) (z : Zone) :
    (s.ownerLosesZone i z).RingLaw := by
  have taken : (s.zoneTaken i z).RingLaw := law.of_frame rfl rfl rfl rfl
  unfold State.ownerLosesZone
  simp only
  rw [← State.zoneTaken]
  split
  · exact taken
  · split
    · split
      · exact (taken.giveUp i).freeSlot i _
      · exact (taken.giveUp i).requeue i _ _
      · exact (taken.giveUp i).requeue i _ _
    · exact taken.endFade i
    all_goals exact taken

theorem State.RingLaw.disableInScheduler {s : State} (law : s.RingLaw) (z : Zone) : (s.disableInScheduler z).RingLaw := by
  have claimant : (s.claimantOut z).RingLaw := by
    unfold State.claimantOut
    split
    · exact law.claimLoss _
    · exact law
  rw [State.disableInScheduler_eq, State.ownerOut]
  split
  · exact claimant.ownerLosesZone _ z
  · exact claimant

theorem zoneSetBody_keepsRings : zoneSetBody.KeepsRings := by
  intro p s law
  have volume (z : Zone) (v : Nat) : (s.setVolume z v).RingLaw := law.of_frame rfl rfl rfl rfl
  have hold {t : State} (ht : t.RingLaw) (z : Zone) (v : Nat) : (t.setIdleHold z v).RingLaw := by
    unfold State.setIdleHold
    split
    · exact ht
    · refine State.RingLaw.settleIdle ?_ z
      exact ht.of_frame rfl rfl rfl rfl
  have enable {t : State} (ht : t.RingLaw) (z : Zone) (on : Bool) : (t.setEnable z on).RingLaw := by
    have recorded : (t.setStage z { t.stages[z] with enabled := false }).RingLaw := ht.of_frame rfl rfl rfl rfl
    unfold State.setEnable
    split
    · exact ht
    · split
      · exact ht.of_frame rfl rfl rfl rfl
      · exact (recorded.disableInScheduler z).of_frame rfl rfl rfl rfl
  unfold zoneSetBody
  split
  · split
    · exact law
    · exact enable (hold (volume _ _) _ _) _ _
  · exact law

/-- The load begins with the header's 8 bytes (R108). -/
theorem dirLoadBody_keepsRings : dirLoadBody.KeepsRings := by
  intro p s law
  unfold dirLoadBody
  repeat' split
  · exact law
  · exact law
  · exact law
  · exact law.setDir (.of_request rfl rfl (show 8 ≤ 64 by decide))

theorem flashConfigBody_keepsRings : flashConfigBody.KeepsRings := by
  intro p s law
  unfold flashConfigBody
  repeat' split
  all_goals exact law.of_frame rfl rfl rfl rfl

theorem flashClaimBody_keepsRings : flashClaimBody.KeepsRings := by
  intro p s law
  unfold flashClaimBody
  repeat' split
  all_goals exact law.of_frame rfl rfl rfl rfl

theorem flashReleaseBody_keepsRings : flashReleaseBody.KeepsRings := by
  intro p s law
  unfold flashReleaseBody
  repeat' split
  all_goals exact law.of_frame rfl rfl rfl rfl

/-- A soft reset leaves the bursts, and unbinds every engine (R84, R120, R158). -/
theorem softResetBody_keepsRings : softResetBody.KeepsRings := by
  intro p s law
  obtain ⟨-, port, dir⟩ := s.ringLaw_iff.mp law
  obtain ⟨slots, poolFree, order, eq⟩ := s.softReset_eq
  rw [softResetBody, eq]
  refine (State.ringLaw_iff _).mpr ⟨fun e => ?_, ?_, ?_⟩
  · simp only [Fin.getElem_fin, Vector.getElem_ofFn]
    exact Engine.idle_fits _
  · show s.port.softReset.Fits
    unfold Port.softReset
    repeat' split
    all_goals exact port
  · show s.dir.softReset.Fits
    unfold Directory.softReset
    split
    · exact .of_none rfl
    · exact dir

/-! ### The mailbox and the host's bytes -/

theorem State.RingLaw.cmdWrite {body : Body} (keeps : body.KeepsRings) {s : State} (law : s.RingLaw) (code : Byte) :
    (s.cmdWrite code body).RingLaw := by
  have latched : (s.latchCommand code).RingLaw := law.of_frame rfl rfl rfl rfl
  have done := keeps (s.latchCommand code).mailbox.latched _ latched
  unfold State.cmdWrite
  split
  · exact law.of_frame rfl rfl rfl rfl
  · simp only
    split
    · exact done.of_frame rfl rfl rfl rfl
    · exact done

/-- A data byte of the host keeps the law where its register's owning block does (R172). -/
theorem State.RingLaw.hostWrite {s : State} (law : s.RingLaw) {a : RegAddr} {act : State → State} (h : (act s).RingLaw) :
    (s.hostWrite a act).RingLaw := by
  rcases s.hostWrite_cases a act with eq | ⟨-, eq⟩ | ⟨-, -, eq⟩ <;> rw [eq]
  · exact law
  · exact h.of_frame rfl rfl rfl rfl
  · exact law.of_frame rfl rfl rfl rfl

theorem State.RingLaw.hostCommand {body : Body} (keeps : body.KeepsRings) {s : State} (law : s.RingLaw) (code : Byte) :
    (s.hostCommand code body).RingLaw := law.hostWrite (law.cmdWrite keeps code)

theorem badCommandBody_keepsRings : badCommandBody.KeepsRings := fun _ _ law => law

theorem commandTable_keepsRings : ∀ row ∈ commandTable, row.2.KeepsRings := by
  simp only [commandTable, List.forall_mem_cons]
  exact ⟨annOpenBody_keepsRings, annAppendBody_keepsRings, annSubmitBody_keepsRings, annCancelBody_keepsRings,
    annStatusBody_keepsRings, zoneSetBody_keepsRings, dirLoadBody_keepsRings, flashConfigBody_keepsRings,
    flashClaimBody_keepsRings, flashReleaseBody_keepsRings, softResetBody_keepsRings, nofun⟩

theorem bodyOfCode_keepsRings (code : Byte) : (bodyOfCode code).KeepsRings := by
  unfold bodyOfCode
  cases found : commandTable.lookup code with
  | none => exact badCommandBody_keepsRings
  | some body =>
    obtain ⟨before, after, eq, -⟩ := List.lookup_eq_some_iff.mp found
    exact commandTable_keepsRings (code, body) (by simp [eq])

theorem Port.Fits.writePtctl {p : Port} (h : p.Fits) (v : Byte) : (p.writePtctl v).Fits := by
  unfold Port.writePtctl
  repeat' split
  all_goals exact h

theorem Port.Fits.writePtdat {p : Port} (h : p.Fits) (v : Byte) : (p.writePtdat v).Fits := by
  unfold Port.writePtdat
  repeat' split
  all_goals exact h

theorem State.RingLaw.writeRegister {s : State} (law : s.RingLaw) (a : RegAddr) (v : Byte) :
    (s.writeRegister a v).RingLaw := by
  unfold State.writeRegister
  split
  · exact law.of_frame rfl rfl rfl rfl
  · repeat' split
    · exact law.cmdWrite (bodyOfCode_keepsRings v) v
    · exact law.of_frame rfl rfl rfl rfl
    · exact law.of_frame rfl rfl rfl rfl
    · exact law.of_frame rfl rfl rfl rfl
    · exact law.of_frame rfl rfl rfl rfl
    · exact law.setPort (law.port.writePtctl v)
    · exact law.setPort (law.port.writePtdat v)
    · exact law

end Sys2Proof.Machine

/-! ## The law of the rings under the part's own events, and under every step -/

namespace Sys2Proof.Machine

/-! ### The scheduling pass -/

theorem State.RingLaw.preemptOwner {s : State} (law : s.RingLaw) (a : Handle) (z : Zone) :
    (s.preemptOwner a z).RingLaw := by
  unfold State.preemptOwner
  split
  · exact law
  · split
    · exact law.enterStopping _ _
    · exact law

theorem State.RingLaw.displace {s : State} (law : s.RingLaw) (i : SlotId) (zs : ZoneSet) (j : SlotId) :
    (s.displace i zs j).RingLaw := by
  unfold State.displace
  split
  · exact law.claimLoss j
  · exact law

theorem State.RingLaw.loseIfGranted {s : State} (law : s.RingLaw) (i : SlotId) : (s.loseIfGranted i).RingLaw := by
  unfold State.loseIfGranted
  split
  · exact law.claimLoss i
  · exact law

theorem Pass.grant_ringLaw {p : Pass} (law : p.state.RingLaw) (i : SlotId) (zs : ZoneSet) :
    (p.grant i zs).state.RingLaw := by
  have claimZone (q : Pass) (hq : q.state.RingLaw) (h : Handle) (z : Zone) : (q.claimZone h z).state.RingLaw := by
    unfold Pass.claimZone
    split
    · exact hq
    · exact hq.of_frame rfl rfl rfl rfl
  simp only [Pass.grant]
  refine List.foldlRecOn _ _ (List.foldlRecOn _ _ ?_ fun t ht z _ => State.RingLaw.preemptOwner ht _ z) fun t ht j _ =>
    State.RingLaw.displace ht i zs j
  refine List.foldlRecOn (motive := fun q : Pass => q.state.RingLaw) _ _ ?_ fun q hq z _ => claimZone q hq _ z
  exact law.of_frame rfl rfl rfl rfl

theorem Pass.visit_ringLaw {p : Pass} (law : p.state.RingLaw) (i : SlotId) : (p.visit i).state.RingLaw := by
  simp only [Pass.visit]
  split
  · exact law.loseIfGranted i
  · split
    · exact Pass.grant_ringLaw law i _
    · exact law.loseIfGranted i

theorem State.RingLaw.takePass {s : State} (law : s.RingLaw) : s.takePass.RingLaw := by
  unfold State.takePass
  split
  · have visited : (s.candidates.foldl Pass.visit
        { state := { s with passPending := false }, reserved := 0#4, ready := [] }).state.RingLaw := by
      refine List.foldlRecOn (motive := fun p : Pass => p.state.RingLaw) _ _ ?_ fun p hp i _ => Pass.visit_ringLaw hp i
      exact law.of_frame rfl rfl rfl rfl
    simp only
    generalize s.candidates.foldl Pass.visit _ = done at visited ⊢
    have checked : (allSlots.foldl State.startCheck done.state).RingLaw :=
      List.foldlRecOn _ _ visited fun u hu i _ => State.RingLaw.startCheck hu i
    generalize allSlots.foldl State.startCheck done.state = u at checked ⊢
    exact checked.of_frame rfl rfl rfl rfl
  · exact law

/-! ### Starts, expiries, fade ends and completions -/

/-- An engine that is bound has an empty ring, and may ask at once (R57, R61). -/
theorem State.RingLaw.startOn {s : State} (law : s.RingLaw) (i : SlotId) (e : EngineId) : (s.startOn i e).RingLaw := by
  obtain ⟨zones, stages, eq, -⟩ := s.startOn_eq i e
  rw [eq]
  exact (law.setEngine (bindEngine_fits s.dir s.engines[e] s.slots[i] (s.handleAt i))).of_frame rfl rfl rfl rfl

theorem State.RingLaw.takeStart {s : State} (law : s.RingLaw) (i : SlotId) : (s.takeStart i).RingLaw := by
  have dropped : (s.setSlot i { s.slots[i] with startDue := false }).RingLaw := law.of_frame rfl rfl rfl rfl
  unfold State.takeStart
  split
  · simp only
    split
    · split
      · exact law.startOn i _
      · exact dropped
    · exact dropped
  · exact law

theorem State.RingLaw.takeExpiry {s : State} (law : s.RingLaw) (i : SlotId) : (s.takeExpiry i).RingLaw := by
  unfold State.takeExpiry
  split
  · exact ((law.withdrawClaims _).freeSlot i _).requestPass
  · exact law

theorem State.RingLaw.takeFadeEnd {s : State} (law : s.RingLaw) (e : EngineId) : (s.takeFadeEnd e).RingLaw := by
  unfold State.takeFadeEnd
  split
  · exact law
  · split
    · exact law.endFade _
    · exact law.setEngine ((law.fits e).drained le_rfl rfl rfl)

theorem State.RingLaw.takeCompletion {s : State} (law : s.RingLaw) (e : EngineId) : (s.takeCompletion e).RingLaw := by
  unfold State.takeCompletion
  split
  · exact law
  · split
    · exact ((law.giveUp _).freeSlot _ _).requestPass
    · exact law.setEngine ((law.fits e).drained le_rfl rfl rfl)

/-! ### Zone stages and ticks -/

theorem State.RingLaw.takeIdleExpiry {s : State} (law : s.RingLaw) (z : Zone) : (s.takeIdleExpiry z).RingLaw := by
  unfold State.takeIdleExpiry
  split
  · exact law.of_frame rfl rfl rfl rfl
  · exact law

theorem State.RingLaw.takeZoneFadeEnd {s : State} (law : s.RingLaw) (z : Zone) : (s.takeZoneFadeEnd z).RingLaw := by
  have ended : (s.setStage z { s.stages[z] with fade := none }).RingLaw := law.of_frame rfl rfl rfl rfl
  unfold State.takeZoneFadeEnd
  split
  · exact law
  · split
    · exact law
    · simp only
      split
      · exact ended.startCheckZone z
      · unfold State.afterZoneFade
        split
        · exact ended.settleIdle z
        · exact ended.of_frame rfl rfl rfl rfl
        · exact ended.of_frame rfl rfl rfl rfl

theorem State.RingLaw.takeBiasReady {s : State} (law : s.RingLaw) (z : Zone) : (s.takeBiasReady z).RingLaw := by
  have ready : ((s.setStage z { s.stages[z] with bias := .ready }).offer (EventRecord.zone z .ready)).RingLaw :=
    law.of_frame rfl rfl rfl rfl
  unfold State.takeBiasReady
  split
  · simp only
    split
    · exact ready.startCheckZone z
    · exact ready.settleIdle z
  · exact law

theorem State.RingLaw.takeBiasOff {s : State} (law : s.RingLaw) (z : Zone) : (s.takeBiasOff z).RingLaw := by
  unfold State.takeBiasOff
  split
  · exact law.of_frame rfl rfl rfl rfl
  · exact law

theorem State.RingLaw.takeTick {s : State} (law : s.RingLaw) : s.takeTick.RingLaw := by
  unfold State.takeTick
  split
  · exact law
  · exact law.of_frame rfl rfl rfl rfl

theorem State.RingLaw.takeSlew {s : State} (law : s.RingLaw) : s.takeSlew.RingLaw := by
  unfold State.takeSlew
  split
  · exact law
  · exact law.of_frame rfl rfl rfl rfl

/-! ### The loader -/

/-- A run of at most five entries is at most 60 bytes (R108). -/
theorem entryRequest_count (d : Directory) (i count : Nat) : (entryRequest d i count).count ≤ 64 := by
  simp only [entryRequest]
  omega

theorem State.RingLaw.failLoad {s : State} (law : s.RingLaw) (r : LoadResult) (count invalid : Nat) :
    (s.failLoad r count invalid).RingLaw :=
  (law.setDir (x := s.dir.fail) (.of_none rfl)).of_frame rfl rfl rfl rfl

theorem State.RingLaw.takeDirHeader {s : State} (law : s.RingLaw) (data : List Byte) : (s.takeDirHeader data).RingLaw := by
  simp only [State.takeDirHeader]
  split
  · exact law.failLoad _ _ _
  · split
    · exact law.failLoad _ _ _
    · split
      · exact law.failLoad _ _ _
      · exact law.setDir (.of_request rfl rfl (entryRequest_count _ _ _))

theorem State.RingLaw.takeDirEntries {s : State} (law : s.RingLaw) (p : LoadProgress) (data : List Byte) :
    (s.takeDirEntries p data).RingLaw := by
  simp only [State.takeDirEntries]
  generalize storeEntries data.length data s.dir p.sum = out
  split
  · exact law.setDir (.of_request rfl rfl (entryRequest_count _ _ _))
  · unfold State.endLoad
    split
    · exact (law.setDir (x := { out.1 with state := .valid, progress := none }) (.of_none rfl)).of_frame rfl rfl rfl rfl
    · exact (law.setDir (x := out.1.fail) (.of_none rfl)).of_frame rfl rfl rfl rfl

theorem State.RingLaw.takeLoaderData {s : State} (law : s.RingLaw) (number : BitVec 8) (data : List Byte) :
    (s.takeLoaderData number data).RingLaw := by
  unfold State.takeLoaderData
  split
  · split
    · exact law
    · split
      · exact law.takeDirHeader data
      · exact law.takeDirEntries _ data
  · exact law

/-! ### The port -/

/-- The burst that arrives has at most 64 bytes, and so have those that stand afterwards (R142). -/
theorem Port.Fits.arrived {p : Port} (h : p.Fits) : (∀ b ∈ p.arrival, b.count ≤ 64) ∧ p.arrived.Fits := by
  cases before : p.arriving with
  | none =>
    obtain ⟨arrival, arrived⟩ := Port.arrival_of_none before
    rw [arrival, arrived]
    exact ⟨h.1, nofun, h.2⟩
  | some b =>
    obtain ⟨arrival, arrived⟩ := Port.arrival_of_some before
    rw [arrival, arrived]
    exact ⟨before ▸ h.2, h.1, nofun⟩

theorem State.RingLaw.takeLoaderArrival {s : State} (law : s.RingLaw) (data : List Byte) :
    (s.takeLoaderArrival data).RingLaw := by
  unfold State.takeLoaderArrival
  split
  · split
    · split
      · exact (law.setPort law.port.arrived.2).takeLoaderData _ _
      · exact law
    · exact law
  · exact law

/-- The burst of a grant has as many bytes as the request (R141). -/
theorem Port.Fits.bursts {p : Port} (h : p.Fits) {state : PortState} {who : Requester} {addr : FlashAddr} {count : Nat}
    {fcs : Bool} {pointer : EngineId} (small : count ≤ 64) :
    ({ p with state := state, burst := some (p.burstFor who addr count), fcs := fcs, pointer := pointer } : Port).Fits := by
  refine ⟨?_, h.2⟩
  rintro _ ⟨⟩
  exact small

theorem State.RingLaw.grantEngine {s : State} (law : s.RingLaw) (e : EngineId) : (s.grantEngine e).RingLaw := by
  unfold State.grantEngine
  split
  · next r stands =>
    obtain ⟨-, small, -⟩ := (law.fits e).asked r stands
    exact (law.setPort (law.port.bursts small)).setEngine ((law.fits e).granted stands)
  · exact law

theorem State.RingLaw.grantLoader {s : State} (law : s.RingLaw) : s.grantLoader.RingLaw := by
  unfold State.grantLoader
  split
  · next p progress =>
    split
    · next r request =>
      split
      · exact law
      · have small := law.dir p progress r request
        exact (law.setPort (law.port.bursts small)).setDir (.of_request rfl rfl small)
    · exact law
  · exact law

theorem State.RingLaw.arbitrate {s : State} (law : s.RingLaw) : s.arbitrate.RingLaw := by
  unfold State.arbitrate
  split
  · next mode _ => cases mode <;> exact law.of_frame rfl rfl rfl rfl
  · split
    · exact law.grantEngine _
    · exact law.grantLoader

theorem State.RingLaw.takeGrant {s : State} (law : s.RingLaw) : s.takeGrant.RingLaw := by
  rcases s.takeGrant_cases with ⟨-, eq⟩ | ⟨-, -, -, eq⟩ | ⟨-, eq⟩ <;> rw [eq]
  · exact law.arbitrate
  · refine State.RingLaw.arbitrate (law.setPort ⟨nofun, ?_⟩)
    exact law.port.1
  · exact law

theorem State.RingLaw.takeHoldExpiry {s : State} (law : s.RingLaw) : s.takeHoldExpiry.RingLaw := by
  unfold State.takeHoldExpiry
  repeat' split
  all_goals exact law.of_frame rfl rfl rfl rfl

theorem State.RingLaw.takeByteEnd {s : State} (law : s.RingLaw) (received : Byte) : (s.takeByteEnd received).RingLaw := by
  have completed (t : State) (ht : t.RingLaw) : t.completeEnd.RingLaw := by
    unfold State.completeEnd
    split <;> exact ht.of_frame rfl rfl rfl rfl
  unfold State.takeByteEnd
  split
  · exact law
  · have ended := completed (s.setPort { s.port with ptByte := none, received := received }) (law.of_frame rfl rfl rfl rfl)
    unfold State.endWaitingRelease
    split
    · exact ended.of_frame rfl rfl rfl rfl
    · exact ended

/-! ### Frames and the engines' own events -/

theorem State.RingLaw.takeEngineData {s : State} (law : s.RingLaw) (e : EngineId) (epoch : BitVec 8) {data : List Byte}
    (small : data.length ≤ 64) : (s.takeEngineData e epoch data).RingLaw := by
  unfold State.takeEngineData
  split
  · exact law
  · split
    · exact law
    · next h _ =>
      have fits := Bound.takeArrival_fits (b := ⟨s.engines[e], s.slots[handleSlot h]⟩) (law.fits e) s.dir small
      exact (law.setEngine fits).of_frame rfl rfl rfl rfl

/-- A burst that arrives brings no more than was granted (R66). -/
theorem State.RingLaw.takeEngineArrival {s : State} (law : s.RingLaw) (data : List Byte) :
    (s.takeEngineArrival data).RingLaw := by
  unfold State.takeEngineArrival
  split
  · next b arrives =>
    split
    · split
      · next whole =>
        have small := law.port.arrived.1 b arrives
        exact (law.setPort law.port.arrived.2).takeEngineData _ _ (by rw [List.length_append, whole]; exact small)
      · exact law
    · exact law
  · exact law

theorem Engine.Fits.fadeDone {g : Engine} (h : g.Fits) : g.fadeDone.Fits := by
  unfold Engine.fadeDone
  split
  · exact h.withdrawUngranted.drained le_rfl rfl rfl
  · exact h

theorem Engine.Fits.endGap {g : Engine} (h : g.Fits) : g.endGap.Fits := by
  unfold Engine.endGap
  split
  · exact h.drained le_rfl rfl rfl
  · exact h

theorem State.RingLaw.takeGapEnd {s : State} (law : s.RingLaw) (e : EngineId) : (s.takeGapEnd e).RingLaw := by
  unfold State.takeGapEnd
  split
  · exact law.setEngine (law.fits e).endGap
  · exact law

theorem State.RingLaw.takeRepeatGapEnd {s : State} (law : s.RingLaw) (e : EngineId) : (s.takeRepeatGapEnd e).RingLaw := by
  unfold State.takeRepeatGapEnd
  split
  · exact law.setEngine (law.fits e).endGap
  · exact law

theorem State.RingLaw.takeFrame {s : State} (law : s.RingLaw) : s.takeFrame.RingLaw := by
  refine (State.ringLaw_iff _).mpr ⟨fun e => ?_, ?_⟩
  · rw [State.takeFrame_engine]
    exact State.engineFrame_fits (law.fits e)
  · rw [State.takeFrame_eq]
    exact ⟨law.port, law.dir⟩

/-! ### Every step -/

/-- The reset values meet the law (R83, R119, R157). -/
theorem State.RingLaw.of_reset {s : State} (engines : s.engines = State.reset.engines) (port : s.port = State.reset.port)
    (dir : s.dir = State.reset.dir) : s.RingLaw := by
  obtain ⟨-, -, -, -, -, -, -, ringLaw, -⟩ := resetMeetsTheLaws
  exact ringLaw.of_frame engines (by rw [port]) (by rw [port]) (by rw [dir])

theorem State.RingLaw.whenRunning {s : State} (law : s.RingLaw) {act : State → State} (h : (act s).RingLaw) :
    (s.whenRunning act).RingLaw := by
  unfold State.whenRunning
  split
  · exact law
  · exact h

theorem State.RingLaw.fallHcs {s : State} (law : s.RingLaw) : s.fallHcs.RingLaw := by
  unfold State.fallHcs
  repeat' split
  all_goals exact law.of_frame rfl rfl rfl rfl

theorem State.RingLaw.takeAddress {s : State} (law : s.RingLaw) (b : Byte) : (s.takeAddress b).RingLaw := by
  unfold State.takeAddress
  repeat' split
  all_goals exact law.of_frame rfl rfl rfl rfl

/-- Every command keeps the law of the rings. -/
theorem exec_ringLaw (c : Instr) {s : State} (law : s.RingLaw) : ∃ t, exec c s = .next t ∧ t.RingLaw := by
  cases c with
  | annOpen => exact ⟨_, rfl, law.hostCommand annOpenBody_keepsRings _⟩
  | annAppend => exact ⟨_, rfl, law.hostCommand annAppendBody_keepsRings _⟩
  | annSubmit => exact ⟨_, rfl, law.hostCommand annSubmitBody_keepsRings _⟩
  | annCancel => exact ⟨_, rfl, law.hostCommand annCancelBody_keepsRings _⟩
  | annStatus => exact ⟨_, rfl, law.hostCommand annStatusBody_keepsRings _⟩
  | zoneSet => exact ⟨_, rfl, law.hostCommand zoneSetBody_keepsRings _⟩
  | dirLoad => exact ⟨_, rfl, law.hostCommand dirLoadBody_keepsRings _⟩
  | flashConfig => exact ⟨_, rfl, law.hostCommand flashConfigBody_keepsRings _⟩
  | flashClaim => exact ⟨_, rfl, law.hostCommand flashClaimBody_keepsRings _⟩
  | flashRelease => exact ⟨_, rfl, law.hostCommand flashReleaseBody_keepsRings _⟩
  | softReset => exact ⟨_, rfl, law.hostCommand softResetBody_keepsRings _⟩
  | badCommand code =>
    refine ⟨_, rfl, ?_⟩
    split
    · exact law
    · exact law.hostCommand badCommandBody_keepsRings _
  | cmdWriteDiscarded code =>
    refine ⟨_, rfl, ?_⟩
    split
    · exact law.hostWrite (law.of_frame rfl rfl rfl rfl)
    · exact law
  | registerWrite a v => exact ⟨_, rfl, law.hostWrite (law.writeRegister a v)⟩
  | evpop v => exact ⟨_, rfl, law.hostWrite (law.of_frame rfl rfl rfl rfl)⟩
  | evmskWrite reg v => exact ⟨_, rfl, law.hostWrite (law.of_frame rfl rfl rfl rfl)⟩
  | irqcWrite v => exact ⟨_, rfl, law.hostWrite (law.of_frame rfl rfl rfl rfl)⟩
  | ptctlWrite v => exact ⟨_, rfl, law.hostWrite (law.setPort (law.port.writePtctl v))⟩
  | ptdatWrite v => exact ⟨_, rfl, law.hostWrite (law.setPort (law.port.writePtdat v))⟩
  | ptByteEnd received => exact ⟨_, rfl, law.whenRunning (law.takeByteEnd received)⟩
  | powerOnReset => exact ⟨_, rfl, .of_reset rfl rfl rfl⟩
  | pinReset => exact ⟨_, rfl, .of_reset rfl rfl rfl⟩
  | frame => exact ⟨_, rfl, law.whenRunning law.takeFrame⟩
  | tick => exact ⟨_, rfl, law.whenRunning law.takeTick⟩
  | volumeSlewStep => exact ⟨_, rfl, law.whenRunning law.takeSlew⟩
  | deadlineExpiry i => exact ⟨_, rfl, law.whenRunning (law.takeExpiry i)⟩
  | idleTimerExpiry z => exact ⟨_, rfl, law.whenRunning (law.takeIdleExpiry z)⟩
  | holdExpiry => exact ⟨_, rfl, law.whenRunning law.takeHoldExpiry⟩
  | schedulingPass => exact ⟨_, rfl, law.whenRunning law.takePass⟩
  | start i => exact ⟨_, rfl, law.whenRunning (law.takeStart i)⟩
  | engineFadeDone e => exact ⟨_, rfl, law.whenRunning (law.setEngine (law.fits e).fadeDone)⟩
  | fadeEnd e => exact ⟨_, rfl, law.whenRunning (law.takeFadeEnd e)⟩
  | completion e => exact ⟨_, rfl, law.whenRunning (law.takeCompletion e)⟩
  | zoneFadeEnd z => exact ⟨_, rfl, law.whenRunning (law.takeZoneFadeEnd z)⟩
  | biasReady z => exact ⟨_, rfl, law.whenRunning (law.takeBiasReady z)⟩
  | biasOff z => exact ⟨_, rfl, law.whenRunning (law.takeBiasOff z)⟩
  | gapEnd e => exact ⟨_, rfl, law.whenRunning (law.takeGapEnd e)⟩
  | repeatGapEnd e => exact ⟨_, rfl, law.whenRunning (law.takeRepeatGapEnd e)⟩
  | portGrant => exact ⟨_, rfl, law.whenRunning law.takeGrant⟩
  | engineBurstArrival data => exact ⟨_, rfl, law.whenRunning (law.takeEngineArrival data)⟩
  | loaderBurstArrival data => exact ⟨_, rfl, law.whenRunning (law.takeLoaderArrival data)⟩
  | resetnHeldLow => exact ⟨_, rfl, .of_reset rfl rfl rfl⟩
  | hcsFall => exact ⟨_, rfl, law.fallHcs⟩
  | addressByte b => exact ⟨_, rfl, law.whenRunning (law.takeAddress b)⟩
  | hcsRise => exact ⟨_, rfl, law.of_frame rfl rfl rfl rfl⟩

/-- Settles O57: a request is made only where 64 bytes are free, a burst brings what was granted, and no other step
adds to a ring or to what is reserved. -/
theorem everyStepKeepsRingLaw : Obligations.EveryStepKeepsRingLaw := by
  intro s t law h
  unfold step at h
  split at h
  · obtain rfl := Host.Outcome.next.inj h
    exact law
  · next c rest _ =>
    obtain ⟨u, eq, law'⟩ := exec_ringLaw c (s := s.withPending rest) (law.of_frame rfl rfl rfl rfl)
    obtain rfl := Host.Outcome.next.inj (eq.symm.trans h)
    exact law'

end Sys2Proof.Machine

/-! ## Chapter 3 rules: frames of engines in every state -/

namespace Sys2Proof.Machine

/-! ### What a frame leaves, by what the engine does at it -/

section takeFrame
variable {s : State} {e : EngineId} {h : Handle} {q : Play} {sample : Int}

/-- What a frame leaves of a bound engine and its announcement: what the engine's own frame leaves, with the request that
R61 asks for (R56, R61). -/
theorem State.takeFrame_of_frame (law : s.BindingLaw) (bound : s.engines[e].binding = some h)
    (frame : (s.playAt e h).frame s.dir = (q, sample)) :
    (s.engineFrame e).sample = sample ∧ s.takeFrame.slots[handleSlot h] = q.slot
      ∧ s.takeFrame.engines[e] = (q.bound.considerRequest s.dir).eng := by
  have gives := State.engineFrame_eq bound
  rw [State.playAt] at frame
  simp only [frame, Bound.considerRequest_slot] at gives
  refine ⟨congrArg FrameOut.sample gives, State.takeFrame_slot law bound (congrArg FrameOut.slot gives), ?_⟩
  rw [State.takeFrame_engine, gives]

/-- The evaluation of R61 may change the request alone. -/
theorem State.takeFrame_engine_of_frame (law : s.BindingLaw) (bound : s.engines[e].binding = some h)
    (frame : (s.playAt e h).frame s.dir = (q, sample)) : ∃ r, s.takeFrame.engines[e] = { q.eng with request := r } := by
  obtain ⟨-, -, eng⟩ := State.takeFrame_of_frame law bound frame
  obtain ⟨r, eq⟩ := q.bound.considerRequest_frame s.dir
  exact ⟨r, by rw [eng, eq]; rfl⟩

end takeFrame

/-! ### PRIMING -/

/-- The engine as its play side takes it up once the exit test of PRIMING holds (R69, R80). -/
def Engine.started (g : Engine) : Engine :=
  { g with state := if g.state = .priming then .running else g.state
           fadePriming := if g.state = .fading then false else g.fadePriming }

/-- A bound engine that has something to do at a frame once its exit test holds (R56, R69, R80). -/
abbrev Engine.Works (g : Engine) : Prop :=
  g.state = .priming ∨ g.state = .running ∨ g.state = .stalled ∨ (g.state = .fading ∧ g.fadePos < 256)

/-- An engine that has left PRIMING and is in no fade is taken up as it stands. -/
theorem Engine.started_eq {g : Engine} (priming : g.state ≠ .priming) (fading : g.state ≠ .fading) : g.started = g := by
  rw [Engine.started, if_neg priming, if_neg fading]

/-- A frame of an engine whose exit test holds (R69, R80). -/
theorem Play.frame_primed {d : Directory} {p q : Play} {sample : Int} (works : p.eng.Works) (primed : p.bound.primed = true)
    (run : (p.withEng p.eng.started).run d = (q, sample)) :
    p.frame d = (q.withEng (p.eng.fadeStep q.eng), p.eng.handsOn sample) := by
  obtain state | state | state | ⟨state, short⟩ := works
  · simp only [Engine.started, state, if_true, reduceCtorEq, if_false] at run
    simp only [Play.frame, state, primed, if_true, Engine.fadeStep, Engine.handsOn, reduceCtorEq, if_false]
    exact run
  · rw [Engine.started_eq (by rw [state]; decide) (by rw [state]; decide)] at run
    exact Play.frame_plays (.inl state) run
  · rw [Engine.started_eq (by rw [state]; decide) (by rw [state]; decide)] at run
    exact Play.frame_plays (.inr (.inl state)) run
  · simp only [Engine.started, state, if_true, reduceCtorEq, if_false] at run
    simp only [Play.frame, state, Nat.not_le.mpr short, if_false, primed, Bool.not_true, Bool.and_false,
      Bool.false_eq_true, Engine.fadeStep, Engine.handsOn, if_true, run, faded]

/-- What a frame leaves of an engine whose exit test holds: its play side's work, and the fade's step (R69, R80). -/
theorem State.takeFrame_primed {s : State} {e : EngineId} {h : Handle} {q : Play} {sample : Int} (law : s.BindingLaw)
    (bound : s.engines[e].binding = some h) (works : s.engines[e].Works) (primed : (s.playAt e h).bound.primed = true)
    (run : ((s.playAt e h).withEng s.engines[e].started).run s.dir = (q, sample)) :
    (s.engineFrame e).sample = s.engines[e].handsOn sample ∧ s.takeFrame.slots[handleSlot h] = q.slot
      ∧ ∃ r, s.takeFrame.engines[e] = { q.eng with
        fadePos := if s.engines[e].state = .fading then q.eng.fadePos + 1 else q.eng.fadePos, request := r } := by
  have frame := Play.frame_primed (p := s.playAt e h) works primed run
  obtain ⟨gives, slot, -⟩ := State.takeFrame_of_frame law bound frame
  obtain ⟨r, eng⟩ := State.takeFrame_engine_of_frame law bound frame
  refine ⟨gives, slot, r, ?_⟩
  rw [eng]
  show ({ s.engines[e].fadeStep q.eng with request := r } : Engine) = _
  rw [Engine.fadeStep_frame]

/-- An engine whose exit test does not hold waits (R69). -/
theorem Play.frame_waits {d : Directory} {p : Play} (state : p.eng.state = .priming) (primed : p.bound.primed = false) :
    p.frame d = (p, 0) := by
  simp [Play.frame, state, primed]

/-- The exit test holds at a GAP (R69). -/
theorem Bound.primed_gap {b : Bound} {ms : Nat} (gap : b.slot.segments[b.eng.play.seg]? = some (.gap ms)) :
    b.primed = true := by
  simp [Bound.primed, needsNoBytes, gap]

/-- The exit test at a CLIP whose fault mark is clear (R69). -/
theorem Bound.primed_clip {b : Bound} {n : Nat} {trim : Option Nat}
    (clip : b.slot.segments[b.eng.play.seg]? = some (.clip n trim false)) : b.primed = true ↔ b.eng.filled := by
  simp [Bound.primed, needsNoBytes, clip, or_assoc]

end Sys2Proof.Machine

/-! ## Chapter 3 proofs: stalls -/

namespace Sys2Proof.Machine

/-- Without the bytes it draws on, the next decoded sample is not taken (R70, R86, R90). -/
theorem takeSample_missing {coding : Byte} {d : Decoder} {ring : List Byte} (left : Nat)
    (lacks : lacksSample coding (d.blockPos == d.blockLen) ring) :
    takeSample (codingOf coding) d ring left = .missing := by
  obtain ⟨rfl, rfl⟩ | ⟨rfl, few⟩ | ⟨rfl, lacks⟩ := lacks
  · rfl
  · match ring, few with
    | [], _ => rfl
    | [_], _ => rfl
  · by_cases start : d.blockPos = d.blockLen
    · have few : ring.length < 5 := by
        obtain rfl | ⟨-, few⟩ := lacks
        · decide
        · exact few
      simp [codingOf, takeSample, takeSd4, start, few]
    · obtain rfl | ⟨at_, -⟩ := lacks
      · simp [codingOf, takeSample, takeSd4, start]
      · exact absurd (beq_iff_eq.mp at_) start

/-- What a stall does: no output, and an episode that begins is counted (R78, R80). -/
theorem Play.stall_eq (p : Play) :
    p.stall = { p with bound :=
      ⟨{ p.eng with state := if p.eng.state = .fading then .fading else .stalled, underrun := true },
        { p.slot with underruns := if p.eng.underrun then p.slot.underruns else min 255 (p.slot.underruns + 1) }⟩ } := by
  simp only [Play.stall, satSucc255_eq]
  cases p.eng.underrun <;> rfl

section stall
variable {d : Directory} {fuel : Nat} {p : Play} {n k : Nat} {trim : Option Nat} {entry : ClipEntry}

/-- A frame of a CLIP at which the next decoded sample is due and its bytes are missing (R70, R78). -/
theorem Play.clipFrame_stalls (covers : coversFrames entry.rate k)
    (due : p.eng.dec.phase = 0 ∨ (p.eng.dec.phase = k ∧ p.eng.clipPos ≠ entry.length))
    (lacks : lacksSample entry.coding (p.eng.dec.blockPos == p.eng.dec.blockLen) p.eng.ring) :
    p.clipFrame entry trim = .output p.stall 0 := by
  obtain ⟨frames, -⟩ := framesPerSample_eq covers
  have block : p.eng.dec.endRun.blockPos = p.eng.dec.blockPos ∧ p.eng.dec.endRun.blockLen = p.eng.dec.blockLen := by
    unfold Decoder.endRun
    split <;> exact ⟨rfl, rfl⟩
  rw [← block.1, ← block.2] at lacks
  have between : ¬ (p.eng.dec.phase ≠ 0 ∧ p.eng.dec.phase < k) := by omega
  have going : ¬ (p.eng.dec.phase ≠ 0 ∧ p.eng.clipPos = entry.length) := by tauto
  simp only [Play.clipFrame, frames, between, going, if_false, takeSample_missing _ lacks]

/-- A CLIP that lacks the bytes of the sample that is due stalls the play side (R70, R78). -/
theorem playLoop_clip_stalls (stage : p.eng.play.stage = .segment)
    (clip : p.slot.segments[p.eng.play.seg]? = some (.clip n trim false)) (known : d.entries[n]? = some entry)
    (stalls : p.enterClip.clipFrame entry trim = .output p.enterClip.stall 0) :
    playLoop d (fuel + 1) p = (p.enterClip.stall, 0) := by
  have found : d.entry n = entry := by simp [Directory.entry, known]
  simp only [playLoop, stage, clip, Bool.false_eq_true, if_false, found, stalls]

/-- A stall in a CLIP, or one that goes on there (R70, R78). -/
theorem Play.run_stalls (stage : p.eng.play.stage = .segment) (begun : p.eng.progress = .begun)
    (clip : p.slot.segments[p.eng.play.seg]? = some (.clip n trim false)) (known : d.entries[n]? = some entry)
    (covers : coversFrames entry.rate k) (due : p.eng.dec.phase = 0 ∨ p.eng.dec.phase = k)
    (inside : p.eng.clipPos < entry.length)
    (lacks : lacksSample entry.coding (p.eng.dec.blockPos == p.eng.dec.blockLen) p.eng.ring) :
    p.run d = (p.stall, 0) := by
  have entered : p.enterClip = p := Play.enterClip_begun (by rw [begun]; decide)
  have stalls := Play.clipFrame_stalls (trim := trim) covers (due.imp_right fun at_ => ⟨at_, inside.ne⟩) lacks
  have loop := playLoop_clip_stalls (fuel := 4 * p.slot.segments.length + 7) stage clip known (by rw [entered]; exact stalls)
  rw [entered] at loop
  exact loop

/-- A stall at the entry into a CLIP, whose decoding starts from its first byte (R70, R78, R85). -/
theorem Play.Enters.stalls {c : Decoder} {play : PlayCursor} {lap : Lap} {pos : Position} (enters : p.Enters d c play lap pos)
    (still : p.eng.fetch.phase ≠ .waiting) (phase : c.phase = 0)
    (clip : p.slot.segments[play.seg]? = some (.clip n trim false)) (known : d.entries[n]? = some entry)
    (covers : coversFrames entry.rate k) (lacks : lacksSample entry.coding true p.eng.ring) :
    p.run d = (Play.stall { p with bound :=
      ⟨{ p.eng with
          play := play, progress := .begun, clipPos := 0, fetch := { p.eng.fetch with lap := lap }
          dec := { c with blockPos := 0, blockLen := 0, nibble := .low } },
        { p.slot with playPos := pos }⟩ }, 0) := by
  obtain ⟨stage, clipPos, f, l, run, -, kept⟩ := enters.run
  obtain ⟨rfl, rfl⟩ := kept still
  rw [run]
  refine playLoop_clip_stalls (p := p.entered c play pos clipPos _ _) stage clip known ?_
  exact Play.clipFrame_stalls covers (.inl phase) lacks

end stall

/-- Settles O31: the bytes are missing at the frame in which the sample is due, in the clip or at its entry. -/
theorem frameStallsWithoutBytes : Obligations.FrameStallsWithoutBytes := by
  intro s e g h i n k override entry stalled up law eng bound slot plays stage known covers record
  subst eng slot record
  refine ⟨_, exec_frame up, fun begun clip due inside lacks => ?_, fun ms passed phase gap clip still lacks => ?_⟩
  · have run := Play.run_stalls (p := s.playAt e h) stage begun clip known covers due inside lacks
    rw [Play.stall_eq] at run
    obtain ⟨r, eng⟩ := State.takeFrame_engine_frame bound plays run
    rw [State.engineFrame_sample bound plays run, Engine.handsOn_zero, eng, State.takeFrame_slot_plays law bound plays run]
    refine ⟨rfl, rfl, ?_⟩
    cases underrun : s.engines[e].underrun <;> simp only [State.playAt, Play.eng, underrun] <;> rfl
  · have leaves : (s.playAt e h).eng.leavesSegment s.dir (s.playAt e h).slot.segments s.engines[e].dec :=
      ⟨stage, .inl ⟨ms, gap, passed, rfl⟩⟩
    have enters := Play.Enters.next leaves (List.getElem?_eq_some_iff.mp clip).1
    have run := enters.stalls still phase clip known covers lacks
    rw [Play.stall_eq] at run
    obtain ⟨r, eng⟩ := State.takeFrame_engine_frame bound plays run
    rw [State.engineFrame_sample bound plays run, Engine.handsOn_zero, eng, State.takeFrame_slot_plays law bound plays run]
    exact ⟨rfl, rfl, rfl⟩

end Sys2Proof.Machine

/-! ## Chapter 3 proofs: gaps -/

namespace Sys2Proof.Machine

/-- A later frame of a GAP (R71). -/
theorem playLoop_gap_later {d : Directory} {fuel : Nat} {p : Play} (stage : p.eng.play.stage = .segment) {ms : Nat}
    (gap : p.slot.segments[p.eng.play.seg]? = some (.gap ms)) (begun : p.eng.progress = .begun)
    (frames : p.eng.framesRemaining ≠ 0) :
    playLoop d (fuel + 1) p = (p.withEng { p.eng with framesRemaining := p.eng.framesRemaining - 1 }, 0) := by
  have inside : p.eng.gapOver = false := by simp [Engine.gapOver, begun, frames]
  have entered : p.eng.progress ≠ .fresh := by rw [begun]; decide
  simp only [playLoop, stage, gap, inside, Bool.false_eq_true, if_false, entered, Play.gapFrame, ← begun]

/-- The play cursor stands at a GAP (R71). -/
theorem State.atGap_eq {s : State} {e : EngineId} {h : Handle} {ms : Nat} (bound : s.engines[e].binding = some h)
    (stage : s.engines[e].play.stage = .segment)
    (gap : s.slots[handleSlot h].segments[s.engines[e].play.seg]? = some (.gap ms)) : s.atGap e = true := by
  simp only [Fin.getElem_fin] at bound stage gap
  simp [State.atGap, bound, stage, gap]

/-- A gap with no frames remaining is over (R71, R76). -/
theorem Engine.endGap_eq {g : Engine} (begun : g.progress = .begun) (none_ : g.framesRemaining = 0) :
    g.endGap = { g with progress := .done } := if_pos ⟨begun, none_⟩

/-- Settles O32: a later frame of either gap, the first frame of a GAP in every state that may come to one, and the two
rows. -/
theorem gapsCountTheirFrames : Obligations.GapsCountTheirFrames := by
  intro s e g h i ms up law eng bound slot place
  subst eng slot
  refine ⟨fun runs begun some_ => ?_, fun works fresh stage => ?_, fun begun none_ => ⟨fun stage => ?_, fun stage => ?_⟩⟩
  · have plays : s.engines[e].Plays := runs.imp_right .inr
    have run : (s.playAt e h).run s.dir = ((s.playAt e h).withEng
        { s.engines[e] with framesRemaining := s.engines[e].framesRemaining - 1 }, 0) := by
      obtain ⟨stage, gap⟩ | stage := place
      · exact playLoop_gap_later stage gap begun some_.ne'
      · exact playLoop_repeatGap_first stage begun some_.ne'
    obtain ⟨r, eng⟩ := State.takeFrame_engine_frame bound plays run
    refine ⟨?_, _, exec_frame up, State.takeFrame_slot_plays law bound plays run, ?_⟩
    · rw [State.engineFrame_sample bound plays run, Engine.handsOn_zero]
    · rw [eng]
      exact ⟨rfl, rfl, begun, rfl, rfl, rfl⟩
  · have gap : s.slots[handleSlot h].segments[s.engines[e].play.seg]? = some (.gap ms) :=
      place.elim And.right fun other => nomatch stage.symm.trans other
    have first := playLoop_gap_first (d := s.dir) (fuel := 4 * (s.playAt e h).slot.segments.length + 7)
      (p := (s.playAt e h).withEng s.engines[e].started) stage gap fresh
    have busy : s.engines[e].Works := works.imp_right (Or.imp_right .inr)
    obtain ⟨gives, slot, r, eng⟩ := State.takeFrame_primed law bound busy (Bound.primed_gap gap) first
    refine ⟨by rw [gives, Engine.handsOn_zero], _, exec_frame up, slot, ?_⟩
    rw [eng]
    refine ⟨rfl, rfl, rfl, rfl, ?_, rfl⟩
    show (if s.engines[e].state = .priming then EngineState.running else s.engines[e].state) = _
    obtain state | state | ⟨state, -⟩ := works <;> rw [state] <;> rfl
  · have gap := place.elim And.right fun other => nomatch stage.symm.trans other
    refine congrArg Host.Outcome.next ((State.whenRunning_up up _).trans ?_)
    rw [State.takeGapEnd, if_pos (State.atGap_eq bound stage gap), Engine.endGap_eq begun none_, State.setEngine]
  · refine congrArg Host.Outcome.next ((State.whenRunning_up up _).trans ?_)
    rw [State.takeRepeatGapEnd, if_pos (by rw [bound, stage]; rfl), Engine.endGap_eq begun none_, State.setEngine]

end Sys2Proof.Machine

/-! ## Chapter 3 proofs: PRIMING that is held, and fades -/

namespace Sys2Proof.Machine

/-- A play side in a fade, at fade position n, of an announcement that is not PLAYING (R79, R80). -/
structure Play.FadesAt (n : Nat) (p : Play) : Prop where
  fading : p.eng.state = .fading
  position : p.eng.fadePos = n
  notPlaying : p.slot.state ≠ .playing

section FadesAt
variable {n : Nat} {p : Play}

/-- A move that leaves the engine's state, its fade position and the announcement's state. -/
theorem Play.FadesAt.of_eq (h : p.FadesAt n) {q : Play} (state : q.eng.state = p.eng.state)
    (position : q.eng.fadePos = p.eng.fadePos) (slot : q.slot.state = p.slot.state) : q.FadesAt n :=
  ⟨state.trans h.fading, position.trans h.position, slot ▸ h.notPlaying⟩

theorem Play.FadesAt.leave (h : p.FadesAt n) : p.leave.FadesAt n := by
  have retried (q : Play) (hq : q.FadesAt n) : ({ q with bound := q.bound.retryFetch } : Play).writePosition.FadesAt n := by
    obtain ⟨c, walked, eq⟩ := q.writePosition_retry
    rw [eq]
    exact hq.of_eq (congrArg Engine.state walked.eng :) (congrArg Engine.fadePos walked.eng :)
      (congrArg Slot.state walked.slot :)
  simp only [Play.leave]
  split
  · exact retried _ (h.of_eq rfl rfl rfl)
  · split
    · exact retried _ (h.of_eq rfl rfl rfl)
    · exact h.of_eq rfl rfl rfl

/-- A fault of an announcement that is not PLAYING begins no fade (R75, R79). -/
theorem Play.FadesAt.countFault (h : p.FadesAt n) (kind : FaultKind) : (p.countFault kind).FadesAt n := by
  have halted (play : PlayCursor) (a : Slot) (events : List EventRecord) (state : a.state = p.slot.state) :
      Play.FadesAt n ⟨⟨{ p.eng.withdrawUngranted with play := play }, a⟩, p.handle, events, p.pass⟩ := by
    rw [Engine.withdrawUngranted_frame]
    exact h.of_eq rfl rfl state
  unfold Play.countFault
  split
  · exact h
  · simp only
    split
    · split
      · next playing => exact absurd playing h.notPlaying
      · exact halted _ _ _ rfl
      · exact halted _ _ _ rfl
    · exact h.of_eq rfl rfl rfl

theorem Play.FadesAt.resume (h : p.FadesAt n) : p.resume.FadesAt n := by
  rw [Play.resume_eq (by rw [h.fading]; decide)]
  exact h.of_eq rfl rfl rfl

theorem Play.FadesAt.clipFrame (h : p.FadesAt n) (entry : ClipEntry) (trim : Option Nat) :
    (p.clipFrame entry trim).play.FadesAt n := by
  simp only [Play.clipFrame]
  split
  · exact h.of_eq rfl rfl rfl
  · split
    · exact h.of_eq rfl rfl rfl
    · split
      · simp only [ClipFrame.play, Play.stall_eq]
        exact h.of_eq ((if_pos h.fading).trans h.fading.symm) rfl rfl
      · exact Play.FadesAt.resume (h.of_eq rfl rfl rfl)
      · exact Play.FadesAt.resume (h.of_eq rfl rfl rfl)

/-- No move of the play side ends a fade or moves its position (R80). -/
theorem Play.Move.fadesAt {q : Play} (move : p.Move q) (h : p.FadesAt n) : q.FadesAt n := by
  cases move with
  | leave => exact h.leave
  | passMark value => unfold Play.passMark; split <;> exact h.of_eq rfl rfl rfl
  | enterClip => unfold Play.enterClip; split <;> exact h.of_eq rfl rfl rfl
  | clip entry trim => exact h.clipFrame entry trim
  | resume => exact h.resume
  | countFault kind => exact h.countFault kind
  | formatFault clipLength =>
    obtain ⟨f, request, l, eq, -⟩ := p.formatFault_eq clipLength
    rw [eq]
    refine Play.FadesAt.countFault ?_ _
    exact h.of_eq rfl rfl rfl
  | leaveRepeatGap => exact h.of_eq rfl rfl rfl
  | gap frames dec => exact h.of_eq rfl rfl rfl

end FadesAt

/-- A play cursor that is HALTED or ENDED gives zero and takes nothing from the ring (R77, R80). -/
theorem Play.run_stopped {d : Directory} {p : Play} (stage : p.eng.play.stage = .halted ∨ p.eng.play.stage = .ended) :
    p.run d = (p, 0) := by
  obtain stage | stage := stage <;> simp only [Play.run, playFuel, playLoop, stage]

/-- A frame of a fade whose play side works (R80). -/
theorem Play.frame_fades {d : Directory} {p : Play} (fading : p.eng.state = .fading) (short : p.eng.fadePos < 256)
    (works : ¬ (p.eng.fadePriming && !p.bound.primed) = true) :
    p.frame d =
      let out := (p.withEng { p.eng with fadePriming := false }).run d
      (out.1.withEng out.1.eng.advanceFade, faded out.2 p.eng.fadePos) := by
  simp only [Play.frame, fading, Nat.not_le.mpr short, if_false, works, Bool.false_eq_true]

/-- After its 256th frame a fade is over: the play side does nothing (R80). -/
theorem Play.frame_faded {d : Directory} {p : Play} (fading : p.eng.state = .fading) (full : 256 ≤ p.eng.fadePos) :
    p.frame d = (p, 0) := by
  simp only [Play.frame, fading, full, if_true]

/-- A frame of the fade, before its 256th is over: the position rises; with the play cursor HALTED or ENDED the output is
zero (R80). -/
theorem Play.frame_fading {d : Directory} {p : Play} (fading : p.eng.state = .fading) (short : p.eng.fadePos < 256)
    (notPlaying : p.slot.state ≠ .playing) :
    ∃ (q : Play) (sample : Int), p.frame d = (q, sample) ∧ q.eng.fadePos = p.eng.fadePos + 1 ∧ q.eng.state = .fading
      ∧ (p.eng.play.stage = .halted ∨ p.eng.play.stage = .ended → sample = 0 ∧ q.eng.ring = p.eng.ring) := by
  by_cases waits : p.eng.fadePriming && !p.bound.primed
  · refine ⟨p.withEng p.eng.advanceFade, 0, by simp [Play.frame, fading, Nat.not_le.mpr short, waits], ?_⟩
    rw [Engine.advanceFade_frame]
    exact ⟨rfl, fading, fun _ => ⟨rfl, rfl⟩⟩
  · have start : (p.withEng { p.eng with fadePriming := false }).FadesAt p.eng.fadePos := ⟨fading, rfl, notPlaying⟩
    have fades := playLoop_induction (fun _ _ move => Play.Move.fadesAt move) d (playFuel p.slot.segments.length) _ start
    refine ⟨_, _, Play.frame_fades fading short waits, ?_⟩
    rw [Engine.advanceFade_frame]
    refine ⟨congrArg (· + 1) fades.position, fades.fading, fun stopped => ?_⟩
    rw [Play.run_stopped (by exact stopped)]
    exact ⟨by simp [faded], rfl⟩

/-- A ring of fewer than 256 bytes that the fetch side still fills does not end PRIMING at a CLIP (R69). -/
theorem Bound.not_primed {b : Bound} {n : Nat} {trim : Option Nat} (few : b.eng.ring.length < 256)
    (fetches : b.eng.fetch.phase = .header ∨ b.eng.fetch.phase = .data)
    (clip : b.slot.segments[b.eng.play.seg]? = some (.clip n trim false)) : b.primed = false := by
  rw [Bool.eq_false_iff, ne_eq, Bound.primed_clip clip]
  rintro (enough | waiting | done)
  · omega
  · rw [waiting] at fetches; tauto
  · rw [done] at fetches; tauto

/-- Settles O35: a frame that waits, a frame of a fade whatever the play side does at it, and a frame after the fade. -/
theorem primingAndFadeFrames : Obligations.PrimingAndFadeFrames := by
  intro s e h n override up law bound
  refine ⟨_, exec_frame up, fun priming few fetches clip => ?_, fun fading short => ?_, fun fading full => ?_⟩
  · have frame := Play.frame_waits (d := s.dir) (p := s.playAt e h) priming (Bound.not_primed few fetches clip)
    obtain ⟨gives, -, -⟩ := State.takeFrame_of_frame law bound frame
    obtain ⟨r, eng⟩ := State.takeFrame_engine_of_frame law bound frame
    rw [eng]
    exact ⟨gives, priming, rfl, rfl⟩
  · have notPlaying : s.slots[handleSlot h].state ≠ .playing := by
      obtain ⟨-, other⟩ | ⟨stopping, -⟩ := law.fading bound
      · exact absurd fading other
      · rw [stopping]; decide
    obtain ⟨q, sample, frame, position, state, stopped⟩ :=
      Play.frame_fading (d := s.dir) (p := s.playAt e h) fading short notPlaying
    obtain ⟨gives, -, -⟩ := State.takeFrame_of_frame law bound frame
    obtain ⟨r, eng⟩ := State.takeFrame_engine_of_frame law bound frame
    rw [eng, gives]
    exact ⟨position, state, stopped⟩
  · obtain ⟨gives, -, eng⟩ := State.takeFrame_of_frame law bound
      (Play.frame_faded (d := s.dir) (p := s.playAt e h) fading full.ge)
    exact ⟨gives, by rw [eng, Bound.considerRequest_faded full.ge]; rfl⟩

end Sys2Proof.Machine

/-! ## Chapter 3 proofs: a clip whose bytes are not there -/

namespace Sys2Proof.Machine

/-- An engine that plays the first segment and has run out of bytes at the start of a decoded sample. -/
def starvedEngine : Engine :=
  { Engine.idle 0#8 with
    state := .running, binding := some 0#8, play := { pass := 1, seg := 0, stage := .segment }, progress := .begun
    fetch := { pass := 1, seg := 0, offset := 0, phase := .data, lap := .same } }

/-- The part with one announcement PLAYING its only CLIP, of PCM8 at 16 kHz, through an engine whose ring is empty. -/
def starvedClip : State :=
  { State.reset with
    slots := State.reset.slots.set 0 { Slot.free 0#4 with
      state := .playing, zoneMask := 1#4, effZones := 1#4, repeatCount := 1, segments := [.clip 0 none false]
      engine := some 0 }
    poolFree := 255, order := [0]
    zones := State.reset.zones.set 0 { owner := some 0#8, claimant := none }
    stages := State.reset.stages.set 0 { Stage.reset with bias := .ready, level := 1024 }
    engines := State.reset.engines.set 0 starvedEngine
    dir := { Directory.reset with
      state := .valid
      entries := [{ start := 0x000100#24, length := 200, coding := 1#8, rate := 2#8, trim := 16#8, valid := true }] } }

theorem starvedClip_bindingLaw : starvedClip.BindingLaw := by
  unfold State.BindingLaw
  decide

/-- Its next frame is a stall, which counts an underrun in the announcement's record (R78). -/
theorem starvedClip_underruns :
    starvedClip.slots[(0 : SlotId)].underruns = 0 ∧ starvedClip.takeFrame.slots[(0 : SlotId)].underruns = 1 := by
  decide

/-- Refutes O30: that the announcement's record does not change is asked of every frame in a CLIP, also of one whose bytes
are not there. An engine with an empty ring stalls at its frame, and the announcement's underrun count goes from 0 to 1. -/
theorem not_framePlaysClip : ¬ Obligations.FramePlaysClip := by
  intro holds
  obtain ⟨t, step, kept, -⟩ := holds starvedClip 0 _ _ 0#8 0 0 3 16 none _ rfl starvedClip_bindingLaw rfl rfl (by decide) rfl
    (.inl rfl) rfl (.inr rfl) rfl rfl (by decide) rfl
  have next : starvedClip.takeFrame = t := Host.Outcome.next.inj ((exec_frame rfl).symm.trans step)
  obtain ⟨before, after⟩ := starvedClip_underruns
  rw [next, kept, before] at after
  exact absurd after (by decide)

end Sys2Proof.Machine

/-! ## Chapter 3 rules: the arrival of an engine burst -/

namespace Sys2Proof.Machine

/-! ### The clip header -/

/-- What a clip header must hold (R63, R105). -/
theorem headerMatches_iff (b0 b1 b2 b3 b4 b5 b6 b7 : Byte) (entry : ClipEntry) :
    headerMatches [b0, b1, b2, b3, b4, b5, b6, b7] entry = true ↔
      b0 = 0xC5#8 ∧ b1 = 0x3A#8 ∧ b7 = b0 ^^^ b1 ^^^ b2 ^^^ b3 ^^^ b4 ^^^ b5 ^^^ b6 ∧ b2 = entry.coding
        ∧ b3 = entry.rate ∧ b4.toNat + 256 * b5.toNat + 65536 * b6.toNat = entry.length := by
  simp [headerMatches, byteAt, littleEndian_three, and_assoc]

/-! ### Fault marks -/

/-- Setting or clearing a fault mark leaves the other segments as they are. -/
theorem setFault_other {segments : List Segment} {j k : Nat} (other : k ≠ j) (fault : Bool) :
    (setFault segments j fault)[k]? = segments[k]? := by
  simp [setFault, other.symm]

/-- The fault mark of a CLIP is set or cleared. -/
theorem setFault_clip {segments : List Segment} {k n : Nat} {trim : Option Nat} {before : Bool} (fault : Bool)
    (clip : segments[k]? = some (.clip n trim before)) : (setFault segments k fault)[k]? = some (.clip n trim fault) := by
  simp [setFault, clip, Segment.withFault]

/-! ### Walks -/

/-- A walk does not come again to a segment that is behind the fetch cursor and that the play cursor has not left
(R64). -/
theorem walkFetch_behind {repeatCount playSeg k : Nat} (held : playSeg ≤ k) :
    ∀ (fuel : Nat) (l : List Segment) (c : FetchCursor), (c.lap = .same → k < c.seg) →
      (walkFetch repeatCount playSeg fuel l c).1[k]? = l[k]?
  | 0, _, _, _ => rfl
  | fuel + 1, l, c, behind => by
    unfold walkFetch
    split
    · split
      · next free =>
        have other : k ≠ c.seg := by
          obtain same | left := free
          · exact (behind same).ne
          · omega
        simp only
        split
        · exact setFault_other other false
        · have on := walkFetch_behind (repeatCount := repeatCount) held fuel (setFault l c.seg false) { c with seg := c.seg + 1 }
            fun same => (behind same).trans (Nat.lt_succ_self _)
          exact on.trans (setFault_other other false)
      · rfl
    · split
      · exact walkFetch_behind held fuel _ _ nofun
      · rfl

/-- The fetch cursor enters a CLIP (R62). -/
theorem Bound.walkFrom_clip {b : Bound} {k n : Nat} {trim : Option Nat} {fault : Bool} (free : b.eng.fetch.lap = .same)
    (clip : b.slot.segments[k]? = some (.clip n trim fault)) :
    b.walkFrom k = ⟨{ b.eng with fetch := { b.eng.fetch with seg := k, offset := 0, phase := .header } },
      { b.slot with segments := setFault b.slot.segments k false }⟩ := by
  simp only [Bound.walkFrom, walkFuel]
  rw [walkFetch_clip _ _ _ (c := { b.eng.fetch with seg := k }) free clip]

/-- The fetch cursor is DONE behind the last segment of the final pass (R64). -/
theorem Bound.walkFrom_done {b : Bound} {k : Nat} (past : b.slot.segments.length ≤ k)
    (final : passesRemain b.slot.repeatCount b.eng.fetch.pass = false) :
    b.walkFrom k = ⟨{ b.eng with fetch := { b.eng.fetch with seg := k, phase := .done } }, b.slot⟩ := by
  simp only [Bound.walkFrom, walkFuel, walkFetch, Nat.not_lt.mpr past, if_false, final, Bool.false_eq_true]

/-- No pass remains after the last one (R64). -/
theorem passesRemain_eq_false {repeatCount pass : Nat} (counted : repeatCount ≠ 0) (last : repeatCount ≤ pass) :
    passesRemain repeatCount pass = false := by
  simp [passesRemain, counted, last]

/-! ### The request that follows -/

section considerRequest
variable (b : Bound) (d : Directory)

/-- The evaluation of R61 leaves the ring. -/
theorem Bound.considerRequest_ring : (b.considerRequest d).eng.ring = b.eng.ring := by
  obtain ⟨r, eq⟩ := b.considerRequest_frame d; rw [eq]

/-- The evaluation of R61 leaves the reserved count. -/
theorem Bound.considerRequest_reserved : (b.considerRequest d).eng.reserved = b.eng.reserved := by
  obtain ⟨r, eq⟩ := b.considerRequest_frame d; rw [eq]

/-- The evaluation of R61 leaves the fetch cursor. -/
theorem Bound.considerRequest_fetch : (b.considerRequest d).eng.fetch = b.eng.fetch := by
  obtain ⟨r, eq⟩ := b.considerRequest_frame d; rw [eq]

end considerRequest

/-- The clip under the fetch cursor (R118). -/
theorem Bound.fetchEntry_eq {b : Bound} {d : Directory} {n : Nat} {trim : Option Nat} {fault : Bool} {entry : ClipEntry}
    (clip : b.slot.segments[b.eng.fetch.seg]? = some (.clip n trim fault)) (known : d.entries[n]? = some entry) :
    b.fetchEntry d = entry := by
  simp [Bound.fetchEntry, clipNumberAt, clip, Directory.entry, known]

/-- A fetch cursor that is WAITING or DONE asks for nothing (R61). -/
theorem Bound.considerRequest_resting {b : Bound} {d : Directory} (none_ : b.eng.request = none)
    (rests : b.eng.fetch.phase = .waiting ∨ b.eng.fetch.phase = .done) : (b.considerRequest d).eng.request = none := by
  have may : ¬ b.eng.mayRequest = true := by
    rw [Engine.mayRequest_iff]
    rintro ⟨-, -, -, phase, -⟩
    obtain rests | rests := rests <;> rw [rests] at phase <;> exact phase.elim nofun nofun
  rw [Bound.considerRequest, if_neg may, none_]

/-- The next request of a fetch cursor in a CLIP (R61, R62). -/
theorem Bound.considerRequest_clip {b : Bound} {d : Directory} {n : Nat} {trim : Option Nat} {fault : Bool}
    {entry : ClipEntry} (none_ : b.eng.request = none) (bound : b.eng.binding.isSome = true)
    (fetches : b.eng.fetch.phase = .header ∨ b.eng.fetch.phase = .data)
    (clip : b.slot.segments[b.eng.fetch.seg]? = some (.clip n trim fault)) (known : d.entries[n]? = some entry) :
    (b.considerRequest d).eng.request =
      if b.eng.ring.length + b.eng.reserved ≤ 448 ∧ b.eng.play.stage ≠ .halted ∧ b.eng.fadePos < 256 then
        some (if b.eng.fetch.phase = .data then
          { kind := .data, addr := entry.start + 8#24 + BitVec.ofNat 24 b.eng.fetch.offset
            count := min 64 (entry.length - b.eng.fetch.offset), epoch := b.eng.epoch, granted := false, dropped := false }
        else
          { kind := .header, addr := entry.start, count := 8, epoch := b.eng.epoch, granted := false, dropped := false })
      else none := by
  have may : b.eng.mayRequest = true ↔
      b.eng.ring.length + b.eng.reserved ≤ 448 ∧ b.eng.play.stage ≠ .halted ∧ b.eng.fadePos < 256 := by
    rw [Engine.mayRequest_iff]
    exact ⟨fun ⟨_, _, room, _, rest⟩ => ⟨room, rest⟩, fun ⟨room, rest⟩ => ⟨bound, none_, room, fetches, rest⟩⟩
  rw [Bound.considerRequest]
  simp only [← may]
  split
  · simp only [Bound.nextRequest, Bound.fetchEntry_eq clip known]
    obtain phase | phase := fetches <;> simp only [phase, if_true, reduceCtorEq, if_false]
  · exact none_

/-! ### The data is taken -/

section takeArrival
variable {b : Bound} {d : Directory} {data : List Byte} {r : BurstRequest}

/-- An arrival answers the request: ring, reserved count, fetch cursor and fault marks alone may change with it, and R61 is
evaluated then (R63, R66). -/
theorem Bound.takeArrival_answers (stands : b.eng.request = some r) :
    ∃ c : Bound, b.takeArrival d data = c.considerRequest d ∧ c.slot = { b.slot with segments := c.slot.segments }
      ∧ c.eng = { b.eng with ring := c.eng.ring, reserved := c.eng.reserved, fetch := c.eng.fetch, request := none } := by
  simp only [Bound.takeArrival, stands]
  refine ⟨_, rfl, ?_⟩
  split
  · simp only [Bound.takeHeader]
    split <;> exact ⟨rfl, rfl⟩
  · simp only [Bound.takeData]
    split <;> exact ⟨rfl, rfl⟩
  · exact ⟨rfl, rfl⟩

variable {n : Nat} {trim : Option Nat} {fault : Bool} {entry : ClipEntry}

/-- A header is accepted (R63). -/
theorem Bound.takeArrival_accepted (stands : b.eng.request = some r) (kind : r.kind = .header)
    (clip : b.slot.segments[b.eng.fetch.seg]? = some (.clip n trim fault)) (known : d.entries[n]? = some entry)
    (good : headerMatches data entry = true) :
    b.takeArrival d data = Bound.considerRequest
      ⟨{ b.eng with request := none, fetch := { b.eng.fetch with phase := .data, offset := 0 } }, b.slot⟩ d := by
  have found := Bound.fetchEntry_eq (b := { b with eng := { b.eng with request := none } }) clip known
  simp only [Bound.takeArrival, stands, kind, Bound.takeHeader, found, good, if_true]

/-- A header is refused (R63). -/
theorem Bound.takeArrival_refused (stands : b.eng.request = some r) (kind : r.kind = .header)
    (clip : b.slot.segments[b.eng.fetch.seg]? = some (.clip n trim fault)) (known : d.entries[n]? = some entry)
    (bad : headerMatches data entry = false) :
    b.takeArrival d data = (Bound.walkFrom
      ⟨{ b.eng with request := none }, { b.slot with segments := setFault b.slot.segments b.eng.fetch.seg true }⟩
      (b.eng.fetch.seg + 1)).considerRequest d := by
  have found := Bound.fetchEntry_eq (b := { b with eng := { b.eng with request := none } }) clip known
  simp only [Bound.takeArrival, stands, kind, Bound.takeHeader, found, bad, Bool.false_eq_true, if_false]

/-- Data joins the ring; with the clip's last bytes the cursor moves on (R66). -/
theorem Bound.takeArrival_joined (stands : b.eng.request = some r) (kind : r.kind = .data) (kept : r.dropped = false)
    (clip : b.slot.segments[b.eng.fetch.seg]? = some (.clip n trim fault)) (known : d.entries[n]? = some entry)
    {joined : Bound}
    (joins : joined = ⟨{ b.eng with
      request := none, ring := b.eng.ring ++ data, reserved := 0
      fetch := { b.eng.fetch with offset := b.eng.fetch.offset + data.length } }, b.slot⟩) :
    b.takeArrival d data = Bound.considerRequest
      (if b.eng.fetch.offset + data.length = entry.length then joined.walkFrom (b.eng.fetch.seg + 1) else joined) d := by
  have found := Bound.fetchEntry_eq (b := { b with eng := { b.eng with request := none } }) clip known
  subst joins
  simp only [Bound.takeArrival, stands, kind, kept, Bound.takeData, found]

/-- Data to be dropped is dropped (R66, R67). -/
theorem Bound.takeArrival_dropped (stands : b.eng.request = some r) (kind : r.kind = .data) (dropped : r.dropped = true) :
    b.takeArrival d data = Bound.considerRequest ⟨{ b.eng with request := none, reserved := 0 }, b.slot⟩ d := by
  simp only [Bound.takeArrival, stands, kind, dropped]

end takeArrival

/-! ### The arrival row -/

/-- The data of a burst is taken off the port (R142). -/
theorem Port.delivers.arrival {p after : Port} {b : Burst} (delivers : p.delivers b after) :
    p.arrival = some b ∧ p.arrived = after := by
  obtain ⟨before, burst, rfl⟩ | ⟨before, rfl⟩ := delivers
  · obtain ⟨arrival, arrived⟩ := Port.arrival_of_none before
    exact ⟨arrival.trans burst, arrived⟩
  · exact Port.arrival_of_some before

section engineBurst
variable {s : State} {e : EngineId} {epoch : BitVec 8} {data : List Byte}

/-- The whole data of an engine's burst reaches the engine, with the port free of it (R66, R142). -/
theorem exec_engineBurstArrival {b : Burst} {port : Port} (up : s.resetnLow = false) (delivers : s.port.delivers b port)
    (requester : b.requester = .engine e epoch) (fresh : b.received = []) (whole : data.length = b.count) :
    exec (.engineBurstArrival data) s = .next (({ s with port := port } : State).takeEngineData e epoch data) := by
  obtain ⟨arrival, rfl⟩ := Port.delivers.arrival delivers
  refine congrArg Host.Outcome.next ((State.whenRunning_up up _).trans ?_)
  simp only [State.takeEngineArrival, arrival, requester, fresh, List.length_nil, Nat.zero_add, whole, if_true,
    List.nil_append]
  rfl

/-- Data with another epoch is discarded (R59). -/
theorem State.takeEngineData_stale (stale : s.engines[e].epoch ≠ epoch) : s.takeEngineData e epoch data = s :=
  if_pos stale

/-- Data with the engine's own epoch is taken by the engine and its announcement (R66). -/
theorem State.takeEngineData_bound {h : Handle} (own : s.engines[e].epoch = epoch) (bound : s.engines[e].binding = some h)
    {c : Bound} (taken : Bound.takeArrival ⟨s.engines[e], s.slots[handleSlot h]⟩ s.dir data = c) :
    s.takeEngineData e epoch data = (s.setEngine e c.eng).setSlot (handleSlot h) c.slot := by
  subst taken
  rw [State.takeEngineData, if_neg (not_not.mpr own)]
  simp only [bound]

end engineBurst

end Sys2Proof.Machine

/-! ## Chapter 3 proofs: the arrival of an engine burst -/

namespace Sys2Proof.Machine

/-- Settles O45: the header's checks; the discarded burst; and, for a burst that is taken, the frame of what it may change
and one clause for each way in which it answers the request. -/
theorem engineBurstArrives : Obligations.EngineBurstArrives := by
  refine ⟨headerMatches_iff, ?_⟩
  intro s data b e epoch port g up delivers requester fresh whole eng
  subst eng
  have step := exec_engineBurstArrival up delivers requester fresh whole
  refine ⟨fun stale => step.trans
    (congrArg _ (State.takeEngineData_stale (s := { s with port := port }) stale)), ?_⟩
  intro h i r n trim fault entry own bound slot stands clip known
  subst slot
  obtain ⟨c, taken, slot, eng⟩ :=
    Bound.takeArrival_answers (b := ⟨s.engines[e], s.slots[handleSlot h]⟩) (d := s.dir) (data := data) stands
  have record : (c.considerRequest s.dir).slot = c.slot := c.considerRequest_slot s.dir
  have ring := c.considerRequest_ring s.dir
  have reserved := c.considerRequest_reserved s.dir
  have fetch := c.considerRequest_fetch s.dir
  refine ⟨_, (c.considerRequest s.dir).eng,
    step.trans (congrArg _ (State.takeEngineData_bound (s := { s with port := port }) own bound taken)),
    (State.setEngine_get_self _ e _).symm, rfl, fun _ other => State.setEngine_get_other _ _ _ _ other,
    fun _ other => State.setSlot_get_other _ _ _ _ other, ?_⟩
  rw [State.setSlot_get_self]
  refine ⟨?_, ?_, fun kind _ good => ?_, fun kind bad free held => ?_, fun kind kept more => ?_,
    fun kind kept last => ?_, fun kind dropped => ?_, fun rests => ?_, fun m trim' fault' entry' fetches clip' known' => ?_⟩
  · rw [record]; exact slot
  · rw [ring, reserved, fetch]
    obtain ⟨r', frame⟩ := c.considerRequest_frame s.dir
    rw [frame, eng]
  · rw [← taken, Bound.takeArrival_accepted stands kind clip known good]
    exact ⟨Bound.considerRequest_slot _ _, Bound.considerRequest_fetch _ _, Bound.considerRequest_ring _ _⟩
  · rw [← taken, Bound.takeArrival_refused stands kind clip known bad, Bound.considerRequest_slot, Bound.considerRequest_fetch,
      Bound.considerRequest_ring]
    refine ⟨?_, rfl, fun m trim' fault' next => ?_⟩
    · exact (walkFetch_behind held _ _ _ fun _ => Nat.lt_succ_self _).trans (setFault_clip true clip)
    · rw [Bound.walkFrom_clip free ((setFault_other (Nat.succ_ne_self _) true).trans next)]
  · rw [← taken, Bound.takeArrival_joined stands kind kept clip known rfl, if_neg more.ne]
    exact ⟨Bound.considerRequest_slot _ _, Bound.considerRequest_ring _ _, Bound.considerRequest_reserved _ _,
      Bound.considerRequest_fetch _ _⟩
  · rw [← taken, Bound.takeArrival_joined stands kind kept clip known rfl, if_pos last, Bound.considerRequest_slot,
      Bound.considerRequest_fetch, Bound.considerRequest_ring, Bound.considerRequest_reserved]
    refine ⟨rfl, rfl, fun m trim' fault' free next => ?_, fun ended counted final => ?_⟩
    · rw [Bound.walkFrom_clip free next]
      exact ⟨rfl, setFault_clip false next⟩
    · rw [Bound.walkFrom_done ended.le (passesRemain_eq_false counted final)]
      exact ⟨rfl, rfl⟩
  · rw [← taken, Bound.takeArrival_dropped stands kind dropped]
    exact ⟨Bound.considerRequest_slot _ _, Bound.considerRequest_ring _ _, Bound.considerRequest_reserved _ _,
      Bound.considerRequest_fetch _ _⟩
  · rw [fetch] at rests
    exact Bound.considerRequest_resting (by rw [eng]) rests
  · rw [record, fetch] at clip'
    rw [fetch] at fetches
    have asks := Bound.considerRequest_clip (by rw [eng]) (by rw [eng, bound]; rfl) fetches clip' known'
    have play : c.eng.play = s.engines[e].play := (congrArg Engine.play eng :)
    have fade : c.eng.fadePos = s.engines[e].fadePos := (congrArg Engine.fadePos eng :)
    have sameEpoch : c.eng.epoch = epoch := (congrArg Engine.epoch eng).trans own
    rw [asks, ring, reserved, fetch, play, fade, sameEpoch]

end Sys2Proof.Machine

/-! ## Chapter 4 rules: one SD4 code, the line and the trim -/

namespace Sys2Proof.Machine

/-! ### One SD4 code -/

/-- A value held to the range of a sample, as the larger of -32768 and the smaller of 32767 and the value. -/
theorem clampSample_eq_max_min (x : Int) : clampSample x = max (-32768) (min 32767 x) :=
  clampInt_eq_max_min (by decide) x

/-- The table of mantissas (R92). -/
theorem sd4Mantissas_table :
    ∀ row ∈ [(0, 16), (1, 18), (2, 20), (3, 22), (4, 24), (5, 27), (6, 30), (7, 33)],
      sd4Mantissas.getD row.1 0 = row.2 := by
  decide

/-- The table of index adjustments (R95). -/
theorem indexAdjust_table :
    ∀ row ∈ [(0, (-1 : Int)), (1, -1), (2, -1), (3, -1), (4, 2), (5, 4), (6, 6), (7, 8)],
      indexAdjust row.1 = row.2 := by
  decide

/-- The sign is set in the codes from 8 on (R93). -/
theorem codeSign_iff (code : BitVec 4) : code.getLsbD 3 = true ↔ ¬ code.toNat < 8 := by
  have sign : code.getLsbD 3 = decide (8 ≤ code.toNat) :=
    (BitVec.msb_eq_getLsbD_last code).symm.trans (BitVec.msb_eq_decide code)
  rw [sign, decide_eq_true_iff, Nat.not_lt]

/-- The predictor rises at the codes below 8 and falls at the others, held to the range of a sample (R93, R94). -/
theorem nextPredictor_eq (predictor : Int) (i : Nat) (code : BitVec 4) :
    nextPredictor predictor i code = max (-32768) (min 32767
      (if code.toNat < 8 then predictor + sd4Diff code (sd4Step i) else predictor - sd4Diff code (sd4Step i))) := by
  simp only [nextPredictor, clampSample_eq_max_min, codeSign_iff, ite_not]

/-- The step index moves by the adjustment of the code's magnitude, held to 0 to 79 (R95). -/
theorem nextStepIndex_eq (i : Nat) (code : BitVec 4) :
    nextStepIndex i code = (max 0 (min 79 ((i : Int) + indexAdjust (codeMagnitude code)))).toNat := by
  rw [nextStepIndex, clampInt_eq_max_min (by decide)]

/-! ### The line and the trim -/

/-- The line's last frame stands on the sample (R97). -/
theorem converted_last (prev s : Int) {k : Nat} (pos : 0 < k) : converted prev s k k = s := by
  have ends : ((s - prev) * k).tdiv k = s - prev := Int.mul_tdiv_cancel _ (by omega)
  rw [converted, ends, add_sub_cancel]

/-- How far the line has moved from the sample before (R97). -/
theorem converted_sub_prev (prev move : Int) (j k : Nat) :
    converted prev (prev + move) j k - prev = (move * j).tdiv k := by
  rw [converted, add_sub_cancel_left, add_sub_cancel_left]

/-- A trimmed value lies in the range of a sample (R99). -/
theorem trimmed_bounds (x : Int) (t : Nat) : -32768 ≤ trimmed x t ∧ trimmed x t ≤ 32767 :=
  clampInt_bounds (by decide) _

/-- A trim of 16 leaves a value in the range of a sample as it is (R99). -/
theorem trimmed_sixteen {x : Int} (low : -32768 ≤ x) (high : x ≤ 32767) : trimmed x 16 = x := by
  have whole : (x * (16 : Nat)).tdiv 16 = x := Int.mul_tdiv_cancel x (by decide)
  rw [trimmed, whole, clampSample_eq_max_min, min_eq_right high, max_eq_right low]

end Sys2Proof.Machine

/-! ## Chapter 4 proofs: one SD4 code, the line and the trim -/

namespace Sys2Proof.Machine

/-- Settles O50: the predictor and the step index after a code, the step and the adjustment read off their tables. -/
theorem sd4CodeDecodes : Obligations.Sd4CodeDecodes := by
  rintro d code _ base _ _ adjust - rfl mantissa rfl rfl row
  have step : sd4Step d.stepIndex = base * 2 ^ (d.stepIndex / 8) :=
    congrArg (· * 2 ^ (d.stepIndex / 8)) (sd4Mantissas_table _ mantissa)
  have moves : sd4Diff code (sd4Step d.stepIndex) = (2 * (code.toNat % 8) + 1) * (base * 2 ^ (d.stepIndex / 8)) / 8 :=
    congrArg (sd4Diff code) step
  have adjusts : indexAdjust (codeMagnitude code) = adjust := indexAdjust_table _ row
  rw [Decoder.decodeCode, nextPredictor_eq, nextStepIndex_eq, moves, adjusts]

/-- Settles O51: a fall's line is the rise's with its move negated, and truncation toward zero keeps the sign apart. -/
theorem lineAndTrim : Obligations.LineAndTrim := by
  refine ⟨fun prev s k => converted_last prev s, fun prev move j k => ?_, fun x => trimmed_sixteen, trimmed_bounds⟩
  have fall : converted prev (prev - move) j k - prev = (-move * j).tdiv k := by
    rw [sub_eq_add_neg prev move, converted_sub_prev]
  rw [converted_sub_prev, fall, neg_mul, Int.neg_tdiv, neg_neg]

end Sys2Proof.Machine

/-! ## What leaves the directory and the port alone -/

namespace Sys2Proof.Machine

/-- The clip store's side of the part: the directory with its load, and the port with its bursts and the host's claim. -/
def State.memory (s : State) : Directory × Port := (s.dir, s.port)

section memory
variable (s : State)

/-! ### Updates of one record -/

@[simp] theorem State.setSlot_memory (i : SlotId) (x : Slot) : (s.setSlot i x).memory = s.memory := rfl
@[simp] theorem State.setZone_memory (z : Zone) (x : ZoneRec) : (s.setZone z x).memory = s.memory := rfl
@[simp] theorem State.setStage_memory (z : Zone) (x : Stage) : (s.setStage z x).memory = s.memory := rfl
@[simp] theorem State.setEngine_memory (e : EngineId) (x : Engine) : (s.setEngine e x).memory = s.memory := rfl
@[simp] theorem State.requestPass_memory : s.requestPass.memory = s.memory := rfl
@[simp] theorem State.offer_memory (r : EventRecord) : (s.offer r).memory = s.memory := rfl
@[simp] theorem State.offerFrom_memory (l : List (List EventRecord)) : (s.offerFrom l).memory = s.memory := rfl

/-! ### Claims, owners and the end of a fade -/

@[simp] theorem State.settleIdle_memory (z : Zone) : (s.settleIdle z).memory = s.memory := by
  rw [State.settleIdle_eq, State.setStage_memory]

@[simp] theorem State.withdrawClaims_memory (h : Handle) : (s.withdrawClaims h).memory = s.memory := by
  obtain ⟨zones, stages, eq, -⟩ := s.withdrawClaims_eq h
  rw [eq]; rfl

@[simp] theorem State.claimLoss_memory (i : SlotId) : (s.claimLoss i).memory = s.memory :=
  s.withdrawClaims_memory (s.handleAt i)

@[simp] theorem State.startCheck_memory (i : SlotId) : (s.startCheck i).memory = s.memory := by
  rw [State.startCheck_eq, State.setSlot_memory]

@[simp] theorem State.startCheckZone_memory (z : Zone) : (s.startCheckZone z).memory = s.memory := by
  obtain ⟨slots, eq, -⟩ := s.startCheckZone_frame z
  rw [eq]; rfl

@[simp] theorem State.releaseZones_memory (h : Handle) : (s.releaseZones h).memory = s.memory := by
  obtain ⟨zones, stages, slots, eq, -⟩ := s.releaseZones_eq h
  rw [eq]; rfl

@[simp] theorem State.unbindOf_memory (i : SlotId) : (s.unbindOf i).memory = s.memory := by
  unfold State.unbindOf
  split <;> rfl

@[simp] theorem State.giveUp_memory (i : SlotId) : (s.giveUp i).memory = s.memory := by
  simp only [State.giveUp, State.setSlot_memory, State.unbindOf_memory, State.releaseZones_memory]

@[simp] theorem State.enterStopping_memory (i : SlotId) (why : Stopping) : (s.enterStopping i why).memory = s.memory := by
  simp only [State.enterStopping, State.setSlot_memory]
  split <;> rfl

@[simp] theorem State.freeSlot_memory (i : SlotId) (o : AnnOutcome) : (s.freeSlot i o).memory = s.memory := rfl

@[simp] theorem State.requeue_memory (i : SlotId) (a : RequeueAction) (by_ : Byte) :
    (s.requeue i a by_).memory = s.memory := rfl

/-! ### The scheduling pass and the start -/

@[simp] theorem State.preemptOwner_memory (h : Handle) (z : Zone) : (s.preemptOwner h z).memory = s.memory := by
  unfold State.preemptOwner
  split
  · rfl
  · split
    · exact s.enterStopping_memory _ _
    · rfl

@[simp] theorem State.displace_memory (i : SlotId) (zs : ZoneSet) (j : SlotId) :
    (s.displace i zs j).memory = s.memory := by
  unfold State.displace
  split
  · exact s.claimLoss_memory j
  · rfl

@[simp] theorem State.loseIfGranted_memory (i : SlotId) : (s.loseIfGranted i).memory = s.memory := by
  unfold State.loseIfGranted
  split
  · exact s.claimLoss_memory i
  · rfl

theorem Pass.claimZone_memory (p : Pass) (h : Handle) (z : Zone) : (p.claimZone h z).state.memory = p.state.memory := by
  unfold Pass.claimZone
  split <;> rfl

theorem Pass.grant_memory (p : Pass) (i : SlotId) (zs : ZoneSet) : (p.grant i zs).state.memory = p.state.memory := by
  simp only [Pass.grant]
  refine List.foldlRecOn (motive := fun t : State => t.memory = p.state.memory) _ _ ?_
    fun t ht j _ => (t.displace_memory i zs j).trans ht
  refine List.foldlRecOn (motive := fun t : State => t.memory = p.state.memory) _ _ ?_
    fun t ht z _ => (t.preemptOwner_memory _ z).trans ht
  exact List.foldlRecOn (motive := fun q : Pass => q.state.memory = p.state.memory) _ _ rfl
    fun q hq z _ => (q.claimZone_memory _ z).trans hq

theorem Pass.visit_memory (p : Pass) (i : SlotId) : (p.visit i).state.memory = p.state.memory := by
  simp only [Pass.visit]
  split
  · exact p.state.loseIfGranted_memory i
  · split
    · exact p.grant_memory i _
    · exact p.state.loseIfGranted_memory i

/-- A pass is the scheduler's and the stages' work (R35). -/
theorem State.takePass_memory : s.takePass.memory = s.memory := by
  unfold State.takePass
  split
  · simp only [State.offerFrom_memory]
    refine List.foldlRecOn (motive := fun t : State => t.memory = s.memory) _ _ ?_
      fun t ht i _ => (t.startCheck_memory i).trans ht
    exact List.foldlRecOn (motive := fun p : Pass => p.state.memory = s.memory) _ _ rfl
      fun p hp i _ => (p.visit_memory i).trans hp
  · rfl

/-- The engine that a start binds hands its first request to the arbiter in its own record (R57, R61). -/
theorem State.takeStart_memory (i : SlotId) : (s.takeStart i).memory = s.memory := by
  unfold State.takeStart
  split
  · simp only
    split
    · split
      · next e _ =>
        obtain ⟨zones, stages, eq, -⟩ := s.startOn_eq i e
        rw [eq]; rfl
      · rfl
    · rfl
  · rfl

/-! ### Zone stages, frames and engines -/

theorem State.takeIdleExpiry_memory (z : Zone) : (s.takeIdleExpiry z).memory = s.memory := by
  unfold State.takeIdleExpiry
  split <;> rfl

theorem State.takeZoneFadeEnd_memory (z : Zone) : (s.takeZoneFadeEnd z).memory = s.memory := by
  unfold State.takeZoneFadeEnd
  split
  · rfl
  · split
    · rfl
    · simp only
      split
      · exact State.startCheckZone_memory _ z
      · unfold State.afterZoneFade
        split
        · exact State.settleIdle_memory _ z
        · rfl
        · rfl

theorem State.takeBiasReady_memory (z : Zone) : (s.takeBiasReady z).memory = s.memory := by
  unfold State.takeBiasReady
  split
  · simp only
    split
    · exact State.startCheckZone_memory _ z
    · exact State.settleIdle_memory _ z
  · rfl

theorem State.takeBiasOff_memory (z : Zone) : (s.takeBiasOff z).memory = s.memory := by
  unfold State.takeBiasOff
  split <;> rfl

theorem State.takeSlew_memory : s.takeSlew.memory = s.memory := by
  unfold State.takeSlew
  split <;> rfl

theorem State.takeFrame_memory : s.takeFrame.memory = s.memory := by
  rw [State.takeFrame_eq]; rfl

theorem State.takeGapEnd_memory (e : EngineId) : (s.takeGapEnd e).memory = s.memory := by
  unfold State.takeGapEnd
  split <;> rfl

theorem State.takeRepeatGapEnd_memory (e : EngineId) : (s.takeRepeatGapEnd e).memory = s.memory := by
  unfold State.takeRepeatGapEnd
  split <;> rfl

theorem State.takeEngineData_memory (e : EngineId) (epoch : BitVec 8) (data : List Byte) :
    (s.takeEngineData e epoch data).memory = s.memory := by
  unfold State.takeEngineData
  split
  · rfl
  · split <;> rfl

/-! ### Host frames -/

theorem State.fallHcs_memory : s.fallHcs.memory = s.memory := by
  unfold State.fallHcs
  split
  · rfl
  · split <;> rfl

theorem State.takeAddress_memory (b : Byte) : (s.takeAddress b).memory = s.memory := by
  unfold State.takeAddress
  split
  · split <;> rfl
  · rfl

end memory

end Sys2Proof.Machine

/-! ## The law of the directory, and the steps that keep it -/

namespace Sys2Proof.Machine

/-! ### What the law asks of a step -/

/-- A step that schedules no announcement, leaves the directory's state and makes no claim EXCLUSIVE (R116, R156). -/
theorem State.DirectoryLaw.of_claim {s t : State} (law : s.DirectoryLaw) (dir : t.dir.state = s.dir.state)
    (claim : t.port.claim.exclusive = true → s.port.claim.exclusive = true)
    (scheduled : ∀ i : SlotId, t.slots[i].state.scheduled = true → s.slots[i].state.scheduled = true) :
    t.DirectoryLaw := by
  have shared (h : s.port.claim.exclusive = false) : t.port.claim.exclusive = false :=
    Bool.eq_false_iff.mpr fun e => Bool.eq_false_iff.mp h (claim e)
  refine ⟨fun i is => ?_, fun loading => shared (law.2 (dir ▸ loading))⟩
  obtain ⟨valid, none_⟩ := law.1 i (scheduled i is)
  exact ⟨dir.trans valid, shared none_⟩

/-- A step on the port alone that makes no claim EXCLUSIVE. -/
theorem State.DirectoryLaw.setPort {s : State} (law : s.DirectoryLaw) {x : Port}
    (claim : x.claim.exclusive = true → s.port.claim.exclusive = true) : (s.setPort x).DirectoryLaw :=
  law.of_claim rfl claim fun _ => id

/-- A step apart from announcements, directory and claim. -/
theorem State.DirectoryLaw.of_frame {s t : State} (law : s.DirectoryLaw) (slots : t.slots = s.slots)
    (dir : t.dir.state = s.dir.state) (claim : t.port.claim = s.port.claim) : t.DirectoryLaw :=
  law.of_claim dir (claim ▸ id) (slots ▸ fun _ => id)

/-- Beside a load nothing is scheduled and no claim is EXCLUSIVE, so that the load may end in any way (R112, R116). -/
theorem State.DirectoryLaw.of_loading {s : State} (law : s.DirectoryLaw) (loading : s.dir.state = .loading)
    (d : Directory) : (s.setDir d).DirectoryLaw := by
  refine ⟨fun i is => ?_, fun _ => law.2 loading⟩
  obtain ⟨valid, -⟩ := law.1 i is
  rw [loading] at valid
  cases valid

/-- Where nothing is scheduled and no load runs, any claim may stand. -/
theorem State.directoryLaw_of_unscheduled {s : State} (scheduled : ∀ i : SlotId, s.slots[i].state.scheduled = false)
    (load : s.dir.state ≠ .loading) : s.DirectoryLaw :=
  ⟨fun i is => absurd is (by rw [scheduled i]; decide), fun loading => absurd loading load⟩

/-- Beside an EXCLUSIVE claim nothing is scheduled (R116, R156). -/
theorem State.DirectoryLaw.unscheduled {s : State} (law : s.DirectoryLaw) (claim : s.port.claim.exclusive = true)
    (i : SlotId) : s.slots[i].state.scheduled = false :=
  Bool.eq_false_iff.mpr fun is => Bool.eq_false_iff.mp (law.1 i is).2 claim

/-- A step apart from directory and port that schedules no announcement. -/
structure State.Eases (s t : State) : Prop where
  memory : t.memory = s.memory
  scheduled : ∀ i : SlotId, t.slots[i].state.scheduled = true → s.slots[i].state.scheduled = true

theorem State.Eases.refl (s : State) : s.Eases s := ⟨rfl, fun _ => id⟩

theorem State.Eases.trans {s t u : State} (h : s.Eases t) (k : t.Eases u) : s.Eases u :=
  ⟨k.memory.trans h.memory, fun i => h.scheduled i ∘ k.scheduled i⟩

theorem State.Eases.law {s t : State} (h : s.Eases t) (law : s.DirectoryLaw) : t.DirectoryLaw := by
  obtain ⟨dir, port⟩ := Prod.mk.inj h.memory
  exact law.of_claim (by rw [dir]) (by rw [port]; exact id) h.scheduled

/-- What is scheduled after a quiet step was scheduled before it (R15). -/
theorem State.Quiet.was_scheduled {s t : State} (h : s.Quiet t) {i : SlotId} (is : t.slots[i].state.scheduled = true) :
    s.slots[i].state.scheduled = true := (h.place i).scheduled.symm.trans is

theorem State.Quiet.eases {s t : State} (h : s.Quiet t) (memory : t.memory = s.memory) : s.Eases t :=
  ⟨memory, fun _ => h.was_scheduled⟩

theorem State.DirectoryLaw.of_quiet {s t : State} (law : s.DirectoryLaw) (h : s.Quiet t)
    (memory : t.memory = s.memory) : t.DirectoryLaw := (h.eases memory).law law

theorem State.Eases.requestPass {s t : State} (h : s.Eases t) : s.Eases t.requestPass := ⟨h.memory, h.scheduled⟩

/-- A HELD claim is EXCLUSIVE by its mode, whatever its hold and its end (R148). -/
theorem Claim.held_exclusive (mode : ClaimMode) (hold hold' : Option Nat) (ending ending' : Option EndPending) :
    (Claim.held mode hold ending).exclusive = (Claim.held mode hold' ending').exclusive := by
  cases mode <;> rfl

/-- A tick leaves a claim's mode (R153). -/
theorem Claim.tick_exclusive (c : Claim) : c.tick.exclusive = c.exclusive := by
  cases c with
  | none => rfl
  | waiting mode => rfl
  | held mode hold ending => exact Claim.held_exclusive mode _ _ _ _

theorem State.anyScheduled_iff (s : State) : s.anyScheduled = true ↔ ∃ i : SlotId, s.slots[i].state.scheduled = true := by
  simp only [State.anyScheduled, List.any_eq_true, mem_allSlots, true_and]

/-! ### Announcements that leave -/

/-- One slot changes, and is scheduled afterwards only where it was before. -/
theorem State.Eases.of_slot {s t : State} {i : SlotId} {x : Slot} (memory : t.memory = s.memory)
    (slots : t.slots = s.slots.set i x) (kept : x.state.scheduled = true → s.slots[i].state.scheduled = true) :
    s.Eases t := by
  refine ⟨memory, fun j is => ?_⟩
  rw [slots] at is
  by_cases same : j = i
  · subst same
    exact kept (by simpa using is)
  · exact (s.setSlot_get_other i j x same) ▸ is

theorem State.DirectoryLaw.update {s t : State} {i : SlotId} {x : Slot} (law : s.DirectoryLaw)
    (memory : t.memory = s.memory) (slots : t.slots = s.slots.set i x)
    (kept : x.state.scheduled = true → s.slots[i].state.scheduled = true) : t.DirectoryLaw :=
  (State.Eases.of_slot memory slots kept).law law

/-- A freed announcement is scheduled no more (R28). -/
theorem State.freeSlot_eases (s : State) (i : SlotId) (o : AnnOutcome) : s.Eases (s.freeSlot i o) :=
  .of_slot rfl rfl nofun

theorem State.giveUp_eases (s : State) (i : SlotId) : s.Eases (s.giveUp i) :=
  ((State.Quiet.refl s).giveUp i).eases (s.giveUp_memory i)

/-- An announcement that leaves its zones and its engine is freed, or requeued where it was scheduled (R48, R53). -/
theorem State.requeue_eases {s : State} {i : SlotId} (was : s.slots[i].state.scheduled = true) (a : RequeueAction)
    (by_ : Byte) : s.Eases ((s.giveUp i).requeue i a by_) :=
  (s.giveUp_eases i).trans
    ((State.requeue_quiet (((State.Quiet.refl s).giveUp i).scheduled was) a by_).eases (State.requeue_memory _ i a by_))

theorem State.endFade_eases {s : State} {i : SlotId} (was : s.slots[i].state.scheduled = true) :
    s.Eases (s.endFade i) := by
  refine State.Eases.requestPass ?_
  rcases (s.giveUp i).dispose_cases i with ⟨o, eq⟩ | ⟨a, by_, eq⟩ <;> rw [eq]
  · exact (s.giveUp_eases i).trans (State.freeSlot_eases _ i o)
  · exact State.requeue_eases was a by_

/-- A disable ends the announcement that is left without a zone (R53). -/
theorem State.ownerLosesZone_eases (s : State) (i : SlotId) (z : Zone) : s.Eases (s.ownerLosesZone i z) := by
  have taken : s.Eases (s.zoneTaken i z) := .of_slot rfl rfl id
  simp only [State.ownerLosesZone]
  rw [← State.zoneTaken]
  generalize s.zoneTaken i z = t at taken
  split
  · exact taken
  · split
    · next playing =>
      have was : t.slots[i].state.scheduled = true := by rw [playing]; rfl
      split
      · exact (taken.trans (t.giveUp_eases i)).trans (State.freeSlot_eases _ i _)
      · exact taken.trans (State.requeue_eases was _ _)
      · exact taken.trans (State.requeue_eases was _ _)
    · next stopping => exact taken.trans (State.endFade_eases (by rw [stopping]; rfl))
    all_goals exact taken

theorem State.disableInScheduler_eases (s : State) (z : Zone) : s.Eases (s.disableInScheduler z) := by
  have claimant : s.Eases (s.claimantOut z) := by
    unfold State.claimantOut
    split
    · exact ((State.Quiet.refl s).claimLoss _).eases (s.claimLoss_memory _)
    · exact .refl s
  rw [State.disableInScheduler_eq, State.ownerOut]
  split
  · exact claimant.trans (State.ownerLosesZone_eases _ _ z)
  · exact claimant

/-! ### The commands -/

/-- Whatever the parameters, the body of a command keeps the law of the directory. -/
def Body.KeepsDirectory (body : Body) : Prop := ∀ (p : Params) (s : State), s.DirectoryLaw → (body p s).1.DirectoryLaw

/-- A fresh announcement is BUILDING, and so not scheduled (R18). -/
theorem annOpenBody_keepsDirectory : annOpenBody.KeepsDirectory := by
  intro p s law
  unfold annOpenBody
  split
  · exact law
  · split
    · exact law
    · next i _ => exact law.update (i := i) rfl rfl nofun

theorem annAppendBody_keepsDirectory : annAppendBody.KeepsDirectory := by
  intro p s law
  unfold annAppendBody
  split
  · exact law
  · next i _ =>
    simp only
    repeat' split
    · exact law
    · exact law
    · exact law
    · exact law
    · exact law.update (i := i) rfl rfl id

/-- ANN_SUBMIT is refused without a VALID directory and beside an EXCLUSIVE claim (R22). -/
theorem annSubmitBody_keepsDirectory : annSubmitBody.KeepsDirectory := by
  intro p s law
  unfold annSubmitBody
  split
  · exact law
  · simp only
    split
    · exact law
    · split
      · exact law
      · next free =>
        split
        · exact law
        · next valid =>
          rw [not_not] at valid
          simp only [Bool.or_eq_true, not_or, Bool.not_eq_true] at free
          split
          · exact law
          · split
            · exact law
            · exact ⟨fun _ _ => ⟨valid, free.1⟩, fun _ => free.1⟩

theorem annCancelBody_keepsDirectory : annCancelBody.KeepsDirectory := by
  intro p s law
  unfold annCancelBody
  split
  · exact law
  · next i _ =>
    split
    · exact law
    · exact (s.freeSlot_eases i _).law law
    · exact (s.freeSlot_eases i _).requestPass.law law
    · have withdrawn := ((State.Quiet.refl s).withdrawClaims (s.handleAt i)).eases (s.withdrawClaims_memory _)
      exact (withdrawn.trans (State.freeSlot_eases _ i _)).requestPass.law law
    · next playing =>
      have stopping := ((State.Quiet.refl s).enterStopping playing ⟨.cancelled, false, none⟩).eases
        (s.enterStopping_memory i _)
      exact stopping.requestPass.law law
    · next stopping =>
      refine law.of_quiet (cancelStopping_quiet stopping) ?_
      unfold cancelStopping
      split <;> rfl

theorem annStatusBody_keepsDirectory : annStatusBody.KeepsDirectory := by
  intro p s law
  unfold annStatusBody
  split <;> exact law

theorem State.setEnable_eases (s : State) (z : Zone) (enable : Bool) : s.Eases (s.setEnable z enable) := by
  unfold State.setEnable
  split
  · exact .refl s
  · split
    · exact ⟨rfl, fun _ => id⟩
    · have recorded : s.Eases (s.setStage z { s.stages[z] with enabled := false }) := ⟨rfl, fun _ => id⟩
      have scheduled := recorded.trans (State.disableInScheduler_eases _ z)
      exact ⟨scheduled.memory, scheduled.scheduled⟩

theorem zoneSetBody_keepsDirectory : zoneSetBody.KeepsDirectory := by
  intro p s law
  unfold zoneSetBody
  split
  · split
    · exact law
    · refine (State.setEnable_eases _ _ _).law (law.of_quiet (((State.Quiet.refl s).setVolume _ _).setIdleHold _ _) ?_)
      unfold State.setIdleHold
      split
      · rfl
      · exact State.settleIdle_memory _ _
  · exact law

/-- DIR_LOAD is refused beside a scheduled announcement and beside an EXCLUSIVE claim (R106). -/
theorem dirLoadBody_keepsDirectory : dirLoadBody.KeepsDirectory := by
  intro p s law
  unfold dirLoadBody
  split
  · exact law
  · next idle =>
    split
    · exact law
    · next shared =>
      split
      · exact law
      · rw [Bool.or_eq_true, not_or, State.anyScheduled_iff, not_exists] at idle
        exact ⟨fun i is => absurd is (idle.1 i), fun _ => Bool.eq_false_iff.mpr shared⟩

theorem flashConfigBody_keepsDirectory : flashConfigBody.KeepsDirectory := by
  intro p s law
  unfold flashConfigBody
  repeat' split
  all_goals exact law.of_frame rfl rfl rfl

/-- An EXCLUSIVE FLASH_CLAIM is refused beside a scheduled announcement and beside a load (R148). -/
theorem flashClaimBody_keepsDirectory : flashClaimBody.KeepsDirectory := by
  intro p s law
  unfold flashClaimBody
  split
  · exact law
  · next mode _ =>
    split
    · exact law
    · split
      · exact law
      · next free =>
        cases mode with
        | shared => exact law.setPort nofun
        | exclusive =>
          rw [State.claimBusy, beq_self_eq_true, Bool.true_and, Bool.or_eq_true, not_or, State.anyScheduled_iff,
            not_exists, beq_iff_eq] at free
          exact State.directoryLaw_of_unscheduled (fun i => Bool.eq_false_iff.mpr (free.1 i)) free.2

/-- A release ends a claim, or marks it to end (R154). -/
theorem flashReleaseBody_keepsDirectory : flashReleaseBody.KeepsDirectory := by
  intro p s law
  unfold flashReleaseBody
  split
  · exact law
  · exact law.setPort nofun
  · next mode hold ending claim =>
    split
    · exact law.setPort nofun
    · exact law.setPort fun is => claim ▸ (Claim.held_exclusive mode _ _ _ _).trans is

/-- A soft reset frees every announcement and abandons a load (R31, R120). -/
theorem softResetBody_keepsDirectory : softResetBody.KeepsDirectory := by
  intro p s _
  have dir : s.softReset.dir = s.dir.softReset := by
    obtain ⟨slots, poolFree, order, eq⟩ := s.softReset_eq
    rw [eq]
  have ended : s.dir.softReset.state ≠ .loading := by
    unfold Directory.softReset
    split
    · exact nofun
    · assumption
  exact State.directoryLaw_of_unscheduled (fun i => congrArg AnnState.scheduled (s.softReset_free i)) (dir ▸ ended)

theorem badCommandBody_keepsDirectory : badCommandBody.KeepsDirectory := fun _ _ law => law

/-! ### The mailbox and the host's bytes -/

theorem State.DirectoryLaw.cmdWrite {body : Body} (keeps : body.KeepsDirectory) {s : State} (law : s.DirectoryLaw)
    (code : Byte) : (s.cmdWrite code body).DirectoryLaw := by
  have latched : (s.latchCommand code).DirectoryLaw := law.of_frame rfl rfl rfl
  have done := keeps (s.latchCommand code).mailbox.latched _ latched
  unfold State.cmdWrite
  split
  · exact law.of_frame rfl rfl rfl
  · simp only
    split
    · exact done.of_frame rfl rfl rfl
    · exact done

/-- A data byte of the host keeps the law where its register's owning block does (R172). -/
theorem State.DirectoryLaw.hostWrite {s : State} (law : s.DirectoryLaw) {a : RegAddr} {act : State → State}
    (h : (act s).DirectoryLaw) : (s.hostWrite a act).DirectoryLaw := by
  rcases s.hostWrite_cases a act with eq | ⟨-, eq⟩ | ⟨-, -, eq⟩ <;> rw [eq]
  · exact law
  · exact h.of_frame rfl rfl rfl
  · exact law.of_frame rfl rfl rfl

theorem State.DirectoryLaw.hostCommand {body : Body} (keeps : body.KeepsDirectory) {s : State} (law : s.DirectoryLaw)
    (code : Byte) : (s.hostCommand code body).DirectoryLaw := law.hostWrite (law.cmdWrite keeps code)

theorem commandTable_keepsDirectory : ∀ row ∈ commandTable, row.2.KeepsDirectory := by
  simp only [commandTable, List.forall_mem_cons]
  exact ⟨annOpenBody_keepsDirectory, annAppendBody_keepsDirectory, annSubmitBody_keepsDirectory,
    annCancelBody_keepsDirectory, annStatusBody_keepsDirectory, zoneSetBody_keepsDirectory, dirLoadBody_keepsDirectory,
    flashConfigBody_keepsDirectory, flashClaimBody_keepsDirectory, flashReleaseBody_keepsDirectory,
    softResetBody_keepsDirectory, nofun⟩

theorem bodyOfCode_keepsDirectory (code : Byte) : (bodyOfCode code).KeepsDirectory := by
  unfold bodyOfCode
  cases found : commandTable.lookup code with
  | none => exact badCommandBody_keepsDirectory
  | some body =>
    obtain ⟨before, after, eq, -⟩ := List.lookup_eq_some_iff.mp found
    exact commandTable_keepsDirectory (code, body) (by simp [eq])

/-- The pass-through registers leave the claim (R150, R151). -/
theorem Port.writePtctl_claim (p : Port) (v : Byte) : (p.writePtctl v).claim = p.claim := by
  unfold Port.writePtctl
  repeat' split
  all_goals rfl

theorem Port.writePtdat_claim (p : Port) (v : Byte) : (p.writePtdat v).claim = p.claim := by
  unfold Port.writePtdat
  repeat' split
  all_goals rfl

theorem State.DirectoryLaw.writeRegister {s : State} (law : s.DirectoryLaw) (a : RegAddr) (v : Byte) :
    (s.writeRegister a v).DirectoryLaw := by
  unfold State.writeRegister
  split
  · exact law.of_frame rfl rfl rfl
  · repeat' split
    · exact law.cmdWrite (bodyOfCode_keepsDirectory v) v
    · exact law.of_frame rfl rfl rfl
    · exact law.of_frame rfl rfl rfl
    · exact law.of_frame rfl rfl rfl
    · exact law.of_frame rfl rfl rfl
    · exact law.of_frame rfl rfl (Port.writePtctl_claim _ v)
    · exact law.of_frame rfl rfl (Port.writePtdat_claim _ v)
    · exact law

/-! ### The scheduler's own events -/

theorem State.DirectoryLaw.takeExpiry {s : State} (law : s.DirectoryLaw) (i : SlotId) :
    (s.takeExpiry i).DirectoryLaw := by
  unfold State.takeExpiry
  split
  · have withdrawn := ((State.Quiet.refl s).withdrawClaims (s.handleAt i)).eases (s.withdrawClaims_memory _)
    exact (withdrawn.trans (State.freeSlot_eases _ i _)).requestPass.law law
  · exact law

theorem State.DirectoryLaw.takeFadeEnd {s : State} (law : s.DirectoryLaw) (e : EngineId) :
    (s.takeFadeEnd e).DirectoryLaw := by
  unfold State.takeFadeEnd
  split
  · exact law
  · split
    · next stopping => exact (State.endFade_eases (by rw [stopping.1]; rfl)).law law
    · exact law.of_frame rfl rfl rfl

theorem State.DirectoryLaw.takeCompletion {s : State} (law : s.DirectoryLaw) (e : EngineId) :
    (s.takeCompletion e).DirectoryLaw := by
  unfold State.takeCompletion
  split
  · exact law
  · split
    · exact ((s.giveUp_eases _).trans (State.freeSlot_eases _ _ _)).requestPass.law law
    · exact law.of_frame rfl rfl rfl

/-! ### The loader -/

/-- Data reaches the loader only beside a load (R108). -/
theorem State.DirectoryLaw.takeLoaderData {s : State} (law : s.DirectoryLaw) (number : BitVec 8) (data : List Byte) :
    (s.takeLoaderData number data).DirectoryLaw := by
  unfold State.takeLoaderData
  split
  · next loading _ =>
    have ends (d : Directory) : (s.setDir d).DirectoryLaw := law.of_loading loading d
    have fails (reason : LoadResult) (count invalid : Nat) : (s.failLoad reason count invalid).DirectoryLaw :=
      (ends _).of_frame rfl rfl rfl
    split
    · exact law
    · split
      · simp only [State.takeDirHeader]
        repeat' split
        · exact fails _ _ _
        · exact fails _ _ _
        · exact fails _ _ _
        · exact ends _
      · simp only [State.takeDirEntries, State.endLoad]
        repeat' split
        · exact ends _
        · exact (ends _).of_frame rfl rfl rfl
        · exact (ends _).of_frame rfl rfl rfl
  · exact law

/-- The end of a burst leaves the claim (R142). -/
theorem Port.arrived_claim (p : Port) : p.arrived.claim = p.claim := by
  unfold Port.arrived
  split <;> rfl

theorem State.DirectoryLaw.arrived {s : State} (law : s.DirectoryLaw) : (s.setPort s.port.arrived).DirectoryLaw :=
  law.of_frame rfl rfl s.port.arrived_claim

theorem State.DirectoryLaw.takeLoaderArrival {s : State} (law : s.DirectoryLaw) (data : List Byte) :
    (s.takeLoaderArrival data).DirectoryLaw := by
  unfold State.takeLoaderArrival
  repeat' split
  · exact law.arrived.takeLoaderData _ _
  all_goals exact law

theorem State.DirectoryLaw.takeEngineArrival {s : State} (law : s.DirectoryLaw) (data : List Byte) :
    (s.takeEngineArrival data).DirectoryLaw := by
  unfold State.takeEngineArrival
  repeat' split
  · exact law.arrived.of_quiet (State.takeEngineData_quiet _ _ _ _) (State.takeEngineData_memory _ _ _ _)
  all_goals exact law

/-! ### The port -/

/-- A claim that is granted keeps its mode; for EXCLUSIVE the directory becomes STALE, with nothing scheduled beside the
claim (R116, R149). -/
theorem State.DirectoryLaw.grantClaim {s : State} (law : s.DirectoryLaw) {mode : ClaimMode}
    (waits : s.port.claim = .waiting mode) : (s.grantClaim mode).DirectoryLaw := by
  cases mode with
  | shared => exact law.of_claim rfl nofun fun _ => id
  | exclusive => exact State.directoryLaw_of_unscheduled (law.unscheduled (by rw [waits]; rfl)) nofun

theorem State.DirectoryLaw.arbitrate {s : State} (law : s.DirectoryLaw) : s.arbitrate.DirectoryLaw := by
  unfold State.arbitrate
  split
  · next waits => exact law.grantClaim waits
  · split
    · unfold State.grantEngine
      split <;> exact law.of_frame rfl rfl rfl
    · unfold State.grantLoader
      repeat' split
      all_goals exact law.of_frame rfl rfl rfl

theorem State.DirectoryLaw.takeGrant {s : State} (law : s.DirectoryLaw) : s.takeGrant.DirectoryLaw := by
  rcases s.takeGrant_cases with ⟨-, eq⟩ | ⟨-, -, -, eq⟩ | ⟨-, eq⟩ <;> rw [eq]
  · exact law.arbitrate
  · exact State.DirectoryLaw.arbitrate (law.setPort id)
  · exact law

/-- A hold is that of a SHARED or an EXCLUSIVE claim, which keeps its mode until it ends (R153). -/
theorem State.DirectoryLaw.takeHoldExpiry {s : State} (law : s.DirectoryLaw) : s.takeHoldExpiry.DirectoryLaw := by
  unfold State.takeHoldExpiry
  split
  · next mode claim =>
    split
    · exact law.of_claim rfl nofun fun _ => id
    · exact law.setPort fun is => claim ▸ (Claim.held_exclusive mode _ _ _ _).trans is
  · exact law

theorem State.DirectoryLaw.takeByteEnd {s : State} (law : s.DirectoryLaw) (received : Byte) :
    (s.takeByteEnd received).DirectoryLaw := by
  have completed (t : State) (ht : t.DirectoryLaw) : t.completeEnd.DirectoryLaw := by
    unfold State.completeEnd
    split
    · exact ht.of_claim rfl nofun fun _ => id
    · exact ht.setPort nofun
    · exact ht.setPort nofun
    all_goals exact ht
  unfold State.takeByteEnd
  split
  · exact law
  · have ended := completed (s.setPort { s.port with ptByte := none, received := received }) (law.setPort id)
    unfold State.endWaitingRelease
    split
    · exact ended.of_frame rfl rfl rfl
    · exact ended

/-- A tick counts the remaining hold, and leaves the claim's mode (R153). -/
theorem State.DirectoryLaw.takeTick {s : State} (law : s.DirectoryLaw) : s.takeTick.DirectoryLaw := by
  refine law.of_claim ?_ ?_ fun _ => s.takeTick_quiet.was_scheduled
  · unfold State.takeTick
    split <;> rfl
  · unfold State.takeTick
    split
    · exact id
    · exact fun is => s.port.claim.tick_exclusive.symm.trans is

/-! ### Every step -/

/-- The reset values meet the law (R30, R119, R157). -/
theorem State.DirectoryLaw.of_reset {s : State} (slots : s.slots = State.reset.slots) (port : s.port = State.reset.port)
    (dir : s.dir = State.reset.dir) : s.DirectoryLaw := by
  obtain ⟨-, -, -, directoryLaw, -⟩ := resetMeetsTheLaws
  exact directoryLaw.of_frame slots (by rw [dir]) (by rw [port])

theorem State.DirectoryLaw.whenRunning {s : State} (law : s.DirectoryLaw) {act : State → State}
    (h : (act s).DirectoryLaw) : (s.whenRunning act).DirectoryLaw := by
  unfold State.whenRunning
  split
  · exact law
  · exact h

/-- An event of the part's own apart from directory and port that schedules nothing. -/
theorem State.DirectoryLaw.whenQuiet {s : State} (law : s.DirectoryLaw) {act : State → State} (h : s.Quiet (act s))
    (memory : (act s).memory = s.memory) : (s.whenRunning act).DirectoryLaw := law.whenRunning (law.of_quiet h memory)

/-- Every command keeps the law of the directory. -/
theorem exec_directoryLaw (c : Instr) {s : State} (law : s.DirectoryLaw) : ∃ t, exec c s = .next t ∧ t.DirectoryLaw := by
  cases c with
  | annOpen => exact ⟨_, rfl, law.hostCommand annOpenBody_keepsDirectory _⟩
  | annAppend => exact ⟨_, rfl, law.hostCommand annAppendBody_keepsDirectory _⟩
  | annSubmit => exact ⟨_, rfl, law.hostCommand annSubmitBody_keepsDirectory _⟩
  | annCancel => exact ⟨_, rfl, law.hostCommand annCancelBody_keepsDirectory _⟩
  | annStatus => exact ⟨_, rfl, law.hostCommand annStatusBody_keepsDirectory _⟩
  | zoneSet => exact ⟨_, rfl, law.hostCommand zoneSetBody_keepsDirectory _⟩
  | dirLoad => exact ⟨_, rfl, law.hostCommand dirLoadBody_keepsDirectory _⟩
  | flashConfig => exact ⟨_, rfl, law.hostCommand flashConfigBody_keepsDirectory _⟩
  | flashClaim => exact ⟨_, rfl, law.hostCommand flashClaimBody_keepsDirectory _⟩
  | flashRelease => exact ⟨_, rfl, law.hostCommand flashReleaseBody_keepsDirectory _⟩
  | softReset => exact ⟨_, rfl, law.hostCommand softResetBody_keepsDirectory _⟩
  | badCommand code =>
    refine ⟨_, rfl, ?_⟩
    split
    · exact law
    · exact law.hostCommand badCommandBody_keepsDirectory _
  | cmdWriteDiscarded code =>
    refine ⟨_, rfl, ?_⟩
    split
    · exact law.hostWrite (law.of_frame rfl rfl rfl)
    · exact law
  | registerWrite a v => exact ⟨_, rfl, law.hostWrite (law.writeRegister a v)⟩
  | evpop v => exact ⟨_, rfl, law.hostWrite (law.of_frame rfl rfl rfl)⟩
  | evmskWrite reg v => exact ⟨_, rfl, law.hostWrite (law.of_frame rfl rfl rfl)⟩
  | irqcWrite v => exact ⟨_, rfl, law.hostWrite (law.of_frame rfl rfl rfl)⟩
  | ptctlWrite v => exact ⟨_, rfl, law.hostWrite (law.of_frame rfl rfl (Port.writePtctl_claim _ v))⟩
  | ptdatWrite v => exact ⟨_, rfl, law.hostWrite (law.of_frame rfl rfl (Port.writePtdat_claim _ v))⟩
  | ptByteEnd received => exact ⟨_, rfl, law.whenRunning (law.takeByteEnd received)⟩
  | powerOnReset => exact ⟨_, rfl, .of_reset rfl rfl rfl⟩
  | pinReset => exact ⟨_, rfl, .of_reset rfl rfl rfl⟩
  | frame => exact ⟨_, rfl, law.whenQuiet s.takeFrame_quiet s.takeFrame_memory⟩
  | tick => exact ⟨_, rfl, law.whenRunning law.takeTick⟩
  | volumeSlewStep => exact ⟨_, rfl, law.whenQuiet s.takeSlew_quiet s.takeSlew_memory⟩
  | deadlineExpiry i => exact ⟨_, rfl, law.whenRunning (law.takeExpiry i)⟩
  | idleTimerExpiry z => exact ⟨_, rfl, law.whenQuiet (s.takeIdleExpiry_quiet z) (s.takeIdleExpiry_memory z)⟩
  | holdExpiry => exact ⟨_, rfl, law.whenRunning law.takeHoldExpiry⟩
  | schedulingPass => exact ⟨_, rfl, law.whenQuiet s.takePass_quiet s.takePass_memory⟩
  | start i => exact ⟨_, rfl, law.whenQuiet (s.takeStart_quiet i) (s.takeStart_memory i)⟩
  | engineFadeDone e => exact ⟨_, rfl, law.whenRunning (law.of_frame rfl rfl rfl)⟩
  | fadeEnd e => exact ⟨_, rfl, law.whenRunning (law.takeFadeEnd e)⟩
  | completion e => exact ⟨_, rfl, law.whenRunning (law.takeCompletion e)⟩
  | zoneFadeEnd z => exact ⟨_, rfl, law.whenQuiet (s.takeZoneFadeEnd_quiet z) (s.takeZoneFadeEnd_memory z)⟩
  | biasReady z => exact ⟨_, rfl, law.whenQuiet (s.takeBiasReady_quiet z) (s.takeBiasReady_memory z)⟩
  | biasOff z => exact ⟨_, rfl, law.whenQuiet (s.takeBiasOff_quiet z) (s.takeBiasOff_memory z)⟩
  | gapEnd e => exact ⟨_, rfl, law.whenQuiet (s.takeGapEnd_quiet e) (s.takeGapEnd_memory e)⟩
  | repeatGapEnd e => exact ⟨_, rfl, law.whenQuiet (s.takeRepeatGapEnd_quiet e) (s.takeRepeatGapEnd_memory e)⟩
  | portGrant => exact ⟨_, rfl, law.whenRunning law.takeGrant⟩
  | engineBurstArrival data => exact ⟨_, rfl, law.whenRunning (law.takeEngineArrival data)⟩
  | loaderBurstArrival data => exact ⟨_, rfl, law.whenRunning (law.takeLoaderArrival data)⟩
  | resetnHeldLow => exact ⟨_, rfl, .of_reset rfl rfl rfl⟩
  | hcsFall => exact ⟨_, rfl, law.of_quiet s.fallHcs_quiet s.fallHcs_memory⟩
  | addressByte b => exact ⟨_, rfl, law.whenQuiet (s.takeAddress_quiet b) (s.takeAddress_memory b)⟩
  | hcsRise => exact ⟨_, rfl, law.of_frame rfl rfl rfl⟩

/-- Settles O54: only ANN_SUBMIT schedules an announcement and only DIR_LOAD begins a load, both refused beside an
EXCLUSIVE claim; such a claim is refused beside either; and the directory leaves VALID by a load, a claim or a reset. -/
theorem everyStepKeepsDirectoryLaw : Obligations.EveryStepKeepsDirectoryLaw := by
  intro s t law h
  unfold step at h
  split at h
  · obtain rfl := Host.Outcome.next.inj h
    exact law
  · next c rest _ =>
    obtain ⟨u, eq, law'⟩ := exec_directoryLaw c (s := s.withPending rest) (law.of_frame rfl rfl rfl)
    obtain rfl := Host.Outcome.next.inj (eq.symm.trans h)
    exact law'

end Sys2Proof.Machine

/-! ## Chapter 7 rules: who waits at the arbiter, and whom it grants -/

namespace Sys2Proof.Machine

/-! ### Who waits -/

theorem State.engineWaits_iff (s : State) (e : EngineId) : s.engineWaits e = true ↔ s.engines[e].waits := by
  unfold State.engineWaits
  generalize s.engines[e] = g
  split
  · next r request => simp [Engine.waits, request]
  · next none_ => simp [none_]

theorem Claim.waits_iff (c : Claim) : c.waits = true ↔ ∃ mode, c = .waiting mode := by
  cases c <;> simp [Claim.waits]

theorem Directory.waits_iff (d : Directory) :
    d.waits = true ↔ ∃ p ∈ d.progress, ∃ r ∈ p.request, r.granted = false := by
  unfold Directory.waits
  split
  · next p progress =>
    simp only [progress, Option.mem_def, Option.some.injEq, exists_eq_left']
    split
    · next r request => simp [request]
    · next none_ => simp [none_]
  · next none_ => simp [none_]

/-- The engines in the arbiter's turn, from the one after the round-robin pointer on (R145). -/
def Port.turnList (p : Port) : List EngineId := [p.pointer + 1, p.pointer + 2, p.pointer + 3, p.pointer]

theorem State.nextEngine_eq (s : State) : s.nextEngine = s.port.turnList.find? s.engineWaits := rfl

theorem Port.mem_turnList (p : Port) (e : EngineId) : e ∈ p.turnList := by
  unfold Port.turnList
  generalize p.pointer = q
  revert q e
  decide

/-- The list is in the order of the turn (R145). -/
theorem Port.turnList_ordered (p : Port) : p.turnList.Pairwise fun a b => p.turn a < p.turn b := by
  unfold Port.turnList Port.turn
  generalize p.pointer = q
  revert q
  decide

theorem State.nextEngine_isSome_iff (s : State) : s.nextEngine.isSome = true ↔ ∃ e : EngineId, s.engines[e].waits := by
  simp only [State.nextEngine_eq, List.find?_isSome, State.engineWaits_iff, s.port.mem_turnList, true_and]

/-- The waiting engine that stands before every other in the turn is the next one (R145). -/
theorem State.nextEngine_first {s : State} {e : EngineId} (waits : s.engines[e].waits)
    (first : ∀ e' : EngineId, s.engines[e'].waits → s.port.turn e ≤ s.port.turn e') : s.nextEngine = some e := by
  obtain ⟨before, after, split⟩ := List.append_of_mem (s.port.mem_turnList e)
  have ordered := s.port.turnList_ordered
  rw [split, List.pairwise_append] at ordered
  rw [State.nextEngine_eq, split, List.find?_eq_some_iff_append]
  refine ⟨(s.engineWaits_iff e).mpr waits, before, after, rfl, fun e' earlier => ?_⟩
  have sooner : s.port.turn e' < s.port.turn e := ordered.2.2 e' earlier e List.mem_cons_self
  simpa using fun h => Nat.not_le_of_lt sooner (first e' ((s.engineWaits_iff e').mp h))

theorem State.anyWaits_iff (s : State) :
    s.anyWaits = true ↔ (∃ mode, s.port.claim = .waiting mode) ∨ (∃ e : EngineId, s.engines[e].waits)
      ∨ ∃ p ∈ s.dir.progress, ∃ r ∈ p.request, r.granted = false := by
  simp only [State.anyWaits, Bool.or_eq_true, Claim.waits_iff, State.nextEngine_isSome_iff, Directory.waits_iff, or_assoc]

/-! ### What the arbiter grants -/

section arbitrate
variable {s : State}

theorem State.arbitrate_claim {mode : ClaimMode} (waits : s.port.claim = .waiting mode) :
    s.arbitrate = s.grantClaim mode := by
  simp only [State.arbitrate, waits]

theorem State.arbitrate_next (claim : ∀ mode, s.port.claim ≠ .waiting mode) :
    s.arbitrate = match s.nextEngine with
      | some e => s.grantEngine e
      | none => s.grantLoader := by
  unfold State.arbitrate
  split
  · next mode waits => exact absurd waits (claim mode)
  · rfl

theorem State.arbitrate_engine {e : EngineId} (claim : ∀ mode, s.port.claim ≠ .waiting mode)
    (waits : s.engines[e].waits) (first : ∀ e' : EngineId, s.engines[e'].waits → s.port.turn e ≤ s.port.turn e') :
    s.arbitrate = s.grantEngine e := by
  rw [State.arbitrate_next claim, State.nextEngine_first waits first]

theorem State.arbitrate_loader (claim : ∀ mode, s.port.claim ≠ .waiting mode)
    (engines : ∀ e : EngineId, ¬ s.engines[e].waits) : s.arbitrate = s.grantLoader := by
  have none_ : s.nextEngine = none := by
    rw [← Option.not_isSome_iff_eq_none, State.nextEngine_isSome_iff]
    exact not_exists.mpr engines
  rw [State.arbitrate_next claim, none_]

/-- The grant of the host's claim (R116, R149). -/
theorem State.grantClaim_eq (s : State) (mode : ClaimMode) :
    s.grantClaim mode = { s with
      port := { s.port with
        state := .hostHeld, fcs := false
        claim := .held mode (if mode = .shared then some s.port.holdLimit else none) none }
      dir := if mode = .exclusive then { s.dir with state := .stale } else s.dir
      events := s.events.offer
        { kind := .claim, handle := 0#8, tag := 0#8, d0 := 1#8
          d1 := if mode = .exclusive then 1#8 else 0#8, d2 := 0#8 } } := by
  cases mode <;> rfl

/-- The grant of an engine's request (R141, R146). -/
theorem State.grantEngine_eq {e : EngineId} {r : BurstRequest} (request : s.engines[e].request = some r) :
    s.grantEngine e = { s with
      port := { s.port with
        state := .engineBurst, fcs := true, pointer := e
        burst := some
          { requester := .engine e r.epoch, addr := r.addr, count := r.count, received := []
            clock := s.port.clock, opcode := s.port.opcode, dummy := s.port.dummy } }
      engines := s.engines.set e
        { s.engines[e] with
          request := some { r with granted := true }
          reserved := if r.kind = .data then r.count else s.engines[e].reserved } } := by
  have granted : s.engines[e].granted r = { s.engines[e] with
      request := some { r with granted := true }
      reserved := if r.kind = .data then r.count else s.engines[e].reserved } := by
    cases kind : r.kind <;> simp only [Engine.granted, kind] <;> rfl
  simp only [State.grantEngine, request, granted]
  rfl

/-- The grant of the loader's request (R141, R146). -/
theorem State.grantLoader_eq {p : LoadProgress} {r : LoaderRequest} (progress : s.dir.progress = some p)
    (request : p.request = some r) (waits : r.granted = false) :
    s.grantLoader = { s with
      port := { s.port with
        state := .directoryBurst, fcs := true
        burst := some
          { requester := .loader r.number, addr := r.addr, count := r.count, received := []
            clock := s.port.clock, opcode := s.port.opcode, dummy := s.port.dummy } }
      dir := { s.dir with progress := some { p with request := some { r with granted := true } } } } := by
  simp only [State.grantLoader, progress, request, waits]
  rfl

/-- Without a waiting request of the loader nothing is granted to it (R145). -/
theorem State.grantLoader_none (none_ : ∀ p ∈ s.dir.progress, ∀ r ∈ p.request, r.granted = true) : s.grantLoader = s := by
  unfold State.grantLoader
  split
  · next p progress =>
    split
    · next r request => exact if_pos (none_ p progress r request)
    · rfl
  · rfl

end arbitrate

/-! ### The grant row -/

theorem exec_portGrant {s : State} (up : s.resetnLow = false) : exec .portGrant s = .next s.takeGrant :=
  congrArg _ (State.whenRunning_up up _)

theorem State.takeGrant_idle {s : State} (idle : s.port.state = .idle) : s.takeGrant = s.arbitrate := by
  simp only [State.takeGrant, idle]

theorem State.takeGrant_held {s : State} (held : s.port.state = .hostHeld) : s.takeGrant = s := by
  simp only [State.takeGrant, held]

/-- A grant beside a burst needs a requester, and a port with no earlier data to arrive (R142, log 26). -/
theorem State.takeGrant_burst {s : State} (burst : s.port.state = .engineBurst ∨ s.port.state = .directoryBurst) :
    s.takeGrant =
      if s.port.arriving.isNone && s.anyWaits then (s.setPort s.port.endBeforeArrival).arbitrate else s := by
  rcases burst with burst | burst <;> simp only [State.takeGrant, burst]

end Sys2Proof.Machine

/-! ## Chapter 7 proofs: the arbiter's grant -/

namespace Sys2Proof.Machine

/-- Settles O44: beside a burst the grant is that of the port the burst leaves; at an IDLE port the arbiter looks at the
claim, at the engines in turn, and at the loader. -/
theorem portGrantsInOrder : Obligations.PortGrantsInOrder := by
  intro s up
  rw [exec_portGrant up]
  refine ⟨fun held => ?_, fun burst => ⟨fun nothing => ?_, fun fresh waits => ?_⟩, fun idle => ⟨fun mode waits => ?_,
    fun claim => ⟨fun e r request waits first => ?_, fun engines => ⟨fun p r progress request waits => ?_,
      fun none_ => ?_⟩⟩⟩⟩
  · rw [State.takeGrant_held held]
  · rw [State.takeGrant_burst burst, if_neg]
    rw [Bool.and_eq_true, Option.isNone_iff_eq_none, State.anyWaits_iff]
    rintro ⟨fresh, waits⟩
    rcases nothing with before | ⟨claim, engines, loader⟩
    · exact before fresh
    · rcases waits with ⟨mode, waits⟩ | ⟨e, waits⟩ | ⟨p, progress, r, request, waits⟩
      · exact claim mode waits
      · exact engines e waits
      · exact absurd (loader p progress r request) (by rw [waits]; decide)
  · have ended : exec .portGrant (s.setPort s.port.endBeforeArrival)
        = .next (s.setPort s.port.endBeforeArrival).arbitrate := by
      rw [exec_portGrant (s := s.setPort s.port.endBeforeArrival) up, State.takeGrant_idle rfl]
    rw [State.takeGrant_burst burst, fresh, s.anyWaits_iff.mpr waits]
    exact ended.symm
  · rw [State.takeGrant_idle idle, State.arbitrate_claim waits, State.grantClaim_eq]
  · have asks : s.engines[e].waits := ⟨r, request, waits⟩
    rw [State.takeGrant_idle idle, State.arbitrate_engine claim asks first, State.grantEngine_eq request]
  · rw [State.takeGrant_idle idle, State.arbitrate_loader claim engines, State.grantLoader_eq progress request waits]
  · rw [State.takeGrant_idle idle, State.arbitrate_loader claim engines, State.grantLoader_none none_]

end Sys2Proof.Machine

/-! ## Chapter 5 rules: DIR_LOAD, the loader's bursts and the entries -/

namespace Sys2Proof.Machine

/-! ### DIR_LOAD -/

section dirLoad
variable {p : Params} {s : State}

theorem dirLoadBody_busy (busy : (∃ i : SlotId, s.slots[i].state.scheduled = true) ∨ s.dir.state = .loading
    ∨ s.port.claim.exclusive = true) : dirLoadBody p s = (s, some (Reply.plain .busy)) := by
  rw [← State.anyScheduled_iff, ← or_assoc] at busy
  unfold dirLoadBody
  rcases busy with beside | exclusive
  · exact if_pos (by simpa using beside)
  · simp only [exclusive, if_true, ite_self]

/-- Past the checks of announcements, directory and claim P0 is judged (R106). -/
theorem dirLoadBody_judges (idle : ∀ i : SlotId, s.slots[i].state.scheduled = false) (load : s.dir.state ≠ .loading)
    (shared : s.port.claim.exclusive = false) :
    dirLoadBody p s =
      if p[0] ≠ 0#8 then (s, some (Reply.plain .badParam))
      else (s.setDir (s.dir.beginLoad (baseOfParams p)), some (Reply.plain .ok)) := by
  have free : s.anyScheduled = false := by
    rw [← Bool.not_eq_true, State.anyScheduled_iff, not_exists]
    exact fun i => Bool.eq_false_iff.mp (idle i)
  unfold dirLoadBody
  rw [if_neg (by simp [free, load]), if_neg (by simp [shared])]

end dirLoad

/-- The base of a load whose P0 is 0 (R106, 11.3). -/
theorem baseOfParams_eq {p : Params} {base : FlashAddr} (low : p[0] = 0#8)
    (high : base.toNat = 256 * p[1].toNat + 65536 * p[2].toNat) : baseOfParams p = base := by
  rw [baseOfParams, low, BitVec.toNat_ofNat, Nat.zero_mod, Nat.zero_add, ← high, BitVec.ofNat_toNat, BitVec.setWidth_eq]

/-! ### The arrival of a loader burst -/

section loaderBurst
variable {s : State} {number : BitVec 8} {data : List Byte}

/-- The whole data of the loader's burst reaches the loader, with the port free of it (R108, R142). -/
theorem exec_loaderBurstArrival {b : Burst} {port : Port} (up : s.resetnLow = false) (delivers : s.port.delivers b port)
    (requester : b.requester = .loader number) (fresh : b.received = []) (whole : data.length = b.count) :
    exec (.loaderBurstArrival data) s = .next (({ s with port := port } : State).takeLoaderData number data) := by
  obtain ⟨arrival, rfl⟩ := Port.delivers.arrival delivers
  refine congrArg Host.Outcome.next ((State.whenRunning_up up _).trans ?_)
  simp only [State.takeLoaderArrival, arrival, requester, fresh, List.length_nil, Nat.zero_add, whole, if_true,
    List.nil_append]
  rfl

/-- Data of an abandoned load, or with another load number, is discarded (R108). -/
theorem State.takeLoaderData_stale (stale : s.dir.state ≠ .loading ∨ s.dir.loadNumber ≠ number) :
    s.takeLoaderData number data = s := by
  unfold State.takeLoaderData
  split
  · next loading _ =>
    rcases stale with ended | other
    · exact absurd loading ended
    · exact if_pos other.symm
  · rfl

variable {p : LoadProgress} (loading : s.dir.state = .loading) (own : s.dir.loadNumber = number)
  (progress : s.dir.progress = some p)
include loading own progress

theorem State.takeLoaderData_header (phase : p.phase = .header) :
    s.takeLoaderData number data = s.takeDirHeader data := by
  simp only [State.takeLoaderData, loading, progress, phase, own, ne_eq, not_true_eq_false, if_false]

theorem State.takeLoaderData_entries (phase : p.phase = .entries) :
    s.takeLoaderData number data = s.takeDirEntries { p with request := none } data := by
  simp only [State.takeLoaderData, loading, progress, phase, own, ne_eq, not_true_eq_false, if_false]

end loaderBurst

/-! ### The header -/

section dirHeader
variable {s : State} {b0 b1 b2 b3 b4 b5 b6 b7 : Byte}

/-- The three checks of the header's eight bytes, in their order, and what follows (R103, R109). -/
theorem State.takeDirHeader_eq : s.takeDirHeader [b0, b1, b2, b3, b4, b5, b6, b7] =
    if b0 ≠ 0xA2#8 ∨ b1 ≠ 0x4C#8 then s.failLoad .badIdent 0 0
    else if b2 ≠ 1#8 then s.failLoad .badVersion 0 0
    else if b4.toNat + 256 * b5.toNat = 0 ∨ 512 < b4.toNat + 256 * b5.toNat then s.failLoad .badCount 0 0
    else s.setDir { s.dir with
      progress := some
        { phase := .entries, nextIndex := 0, count := b4.toNat + 256 * b5.toNat
          checksum := BitVec.ofNat 16 (b6.toNat + 256 * b7.toNat), sum := 0#16
          request := some (entryRequest s.dir 0 (b4.toNat + 256 * b5.toNat)) } } := rfl

/-- The header's first bad check and the code it is reported with (R109, R114). -/
theorem State.takeDirHeader_fails {code : Byte}
    (bad : ((b0 ≠ 0xA2#8 ∨ b1 ≠ 0x4C#8) ∧ code = 1#8)
      ∨ (b0 = 0xA2#8 ∧ b1 = 0x4C#8 ∧ b2 ≠ 1#8 ∧ code = 2#8)
      ∨ (b0 = 0xA2#8 ∧ b1 = 0x4C#8 ∧ b2 = 1#8
        ∧ (b4.toNat + 256 * b5.toNat = 0 ∨ 512 < b4.toNat + 256 * b5.toNat) ∧ code = 3#8)) :
    s.takeDirHeader [b0, b1, b2, b3, b4, b5, b6, b7] = { s with
      dir := { s.dir with state := .failed, entries := [], invalid := 0, progress := none }
      events := s.events.offer { kind := .directory, handle := 0#8, tag := 0#8, d0 := code, d1 := 0#8, d2 := 0#8 } } := by
  rw [State.takeDirHeader_eq]
  obtain ⟨ident, rfl⟩ | ⟨rfl, rfl, version, rfl⟩ | ⟨rfl, rfl, rfl, count, rfl⟩ := bad
  · rw [if_pos ident]; rfl
  · rw [if_neg (by decide), if_pos version]; rfl
  · rw [if_neg (by decide), if_neg (by decide), if_pos count]; rfl

end dirHeader

/-! ### Runs of bytes and entries -/

/-- The sum of a run of bytes, from any sum on (R103). -/
theorem foldl_bytes (bytes : List Byte) (x : BitVec 16) :
    bytes.foldl (fun x b => x + b.setWidth 16) x = x + BitVec.ofNat 16 (bytes.map BitVec.toNat).sum := by
  induction bytes generalizing x with
  | nil => simp
  | cons b rest ih =>
    rw [List.foldl_cons, ih, List.map_cons, List.sum_cons, BitVec.ofNat_add, BitVec.ofNat_toNat, BitVec.add_assoc]

theorem sumBytes_eq (bytes : List Byte) : sumBytes bytes = BitVec.ofNat 16 (bytes.map BitVec.toNat).sum := by
  rw [sumBytes, foldl_bytes, BitVec.zero_add]

/-- The judgement of an entry's twelve bytes (R111). -/
def bytesValid (c : List Byte) : Bool := entryValid (entryOfBytes c) (byteAt c 9)

/-- The entry record of twelve bytes, judged (R104, R110). -/
def entryRecord (c : List Byte) : ClipEntry := { entryOfBytes c with valid := bytesValid c }

/-- A directory with the entries of these runs of twelve bytes behind its own, and the invalid ones counted (R110). -/
def Directory.withEntries (d : Directory) (chunks : List (List Byte)) : Directory :=
  { d with entries := d.entries ++ chunks.map entryRecord
           invalid := d.invalid + (chunks.filter fun c => !bytesValid c).length }

theorem Directory.withEntries_nil (d : Directory) : d.withEntries [] = d := by
  simp [Directory.withEntries]

/-- An entry is stored behind those before it, and counted where it is not valid (R110). -/
theorem Directory.storeEntry_withEntries (d : Directory) (c : List Byte) (rest : List (List Byte)) :
    (d.storeEntry c).withEntries rest = d.withEntries (c :: rest) := by
  have stored : (d.storeEntry c).entries = d.entries ++ [entryRecord c] := rfl
  have judged : (d.storeEntry c).invalid = if bytesValid c then d.invalid else d.invalid + 1 := rfl
  have others (entries : List ClipEntry) (n : Nat) : { d.storeEntry c with entries := entries, invalid := n }
      = { d with entries := entries, invalid := n } := rfl
  simp only [Directory.withEntries, others, stored, judged, List.append_assoc, List.singleton_append, List.map_cons]
  congr 1
  cases valid : bytesValid c
  · simp [valid]; omega
  · simp [valid]

/-- Entries of twelve bytes each, taken one by one: stored in order, judged and summed (R110). -/
theorem storeEntries_eq {chunks : List (List Byte)} (twelve : ∀ c ∈ chunks, c.length = 12) {fuel : Nat}
    (enough : chunks.length ≤ fuel) (d : Directory) (sum : BitVec 16) :
    storeEntries fuel chunks.flatten d sum
      = (d.withEntries chunks, sum + BitVec.ofNat 16 (chunks.flatten.map BitVec.toNat).sum) := by
  induction chunks generalizing fuel d sum with
  | nil => cases fuel <;> simp [storeEntries, Directory.withEntries_nil]
  | cons c rest ih =>
    obtain ⟨first, others⟩ := List.forall_mem_cons.mp twelve
    obtain ⟨fuel, rfl⟩ := Nat.exists_eq_succ_of_ne_zero (Nat.ne_of_gt (Nat.zero_lt_of_lt enough))
    have long : ¬ (c ++ rest.flatten).length < 12 := by rw [List.length_append, first]; omega
    rw [List.flatten_cons, storeEntries, if_neg long, List.take_left' first, List.drop_left' first,
      ih others (Nat.le_of_succ_le_succ enough), Directory.storeEntry_withEntries, sumBytes_eq, List.map_append,
      List.sum_append, BitVec.ofNat_add, BitVec.add_assoc]

/-- Runs of twelve bytes, end to end. -/
theorem length_flatten_twelve {chunks : List (List Byte)} (twelve : ∀ c ∈ chunks, c.length = 12) :
    chunks.flatten.length = 12 * chunks.length := by
  rw [List.length_flatten, List.map_congr_left twelve, List.map_const', List.sum_replicate, smul_eq_mul, Nat.mul_comm]

/-- The entries of a whole burst (R110). -/
theorem State.takeDirEntries_eq {s : State} {p : LoadProgress} {chunks : List (List Byte)}
    (twelve : ∀ c ∈ chunks, c.length = 12) {d : Directory} (stored : s.dir.withEntries chunks = d) {total : Nat}
    (sum : total = p.sum.toNat + (chunks.flatten.map BitVec.toNat).sum) :
    s.takeDirEntries p chunks.flatten =
      if d.entries.length < p.count then
        s.setDir { d with progress := some { p with
          nextIndex := d.entries.length, sum := BitVec.ofNat 16 total
          request := some (entryRequest d d.entries.length p.count) } }
      else s.endLoad d p.count (decide (p.checksum.toNat = total % 65536)) := by
  have enough : chunks.length ≤ chunks.flatten.length := by rw [length_flatten_twelve twelve]; omega
  have summed : p.sum + BitVec.ofNat 16 (chunks.flatten.map BitVec.toNat).sum = BitVec.ofNat 16 total := by
    rw [sum, BitVec.ofNat_add, BitVec.ofNat_toNat, BitVec.setWidth_eq]
  have compared : (BitVec.ofNat 16 total == p.checksum) = decide (p.checksum.toNat = total % 65536) := by
    rw [Bool.beq_eq_decide_eq, decide_eq_decide, BitVec.toNat_eq, BitVec.toNat_ofNat, eq_comm]
  simp only [State.takeDirEntries, storeEntries_eq twelve enough, summed, stored, compared]

/-- The end of a load whose sum matches (R112, R114). -/
theorem State.endLoad_matched (s : State) (d : Directory) (count : Nat) :
    s.endLoad d count true = { s with
      dir := { d with state := .valid, progress := none }
      events := s.events.offer
        { kind := .directory, handle := 0#8, tag := 0#8
          d0 := byteOf (16 * (d.entries.length / 256 % 4) + 64 * (d.invalid / 256 % 4))
          d1 := byteOf d.entries.length, d2 := byteOf d.invalid } } := by
  simp only [State.endLoad, if_true, EventRecord.directory, loadResultCode, Nat.zero_add]
  rfl

/-- The end of a load whose sum does not match (R112, R114). -/
theorem State.endLoad_mismatched (s : State) (d : Directory) (count : Nat) :
    s.endLoad d count false = { s with
      dir := { d with state := .failed, entries := [], invalid := 0, progress := none }
      events := s.events.offer
        { kind := .directory, handle := 0#8, tag := 0#8
          d0 := byteOf (4 + 16 * (count / 256 % 4) + 64 * (d.invalid / 256 % 4))
          d1 := byteOf count, d2 := byteOf d.invalid } } := rfl

/-! ### The judgement of an entry -/

/-- Bit 0 of a byte, read off its number (R185). -/
theorem getLsbD_zero_iff (b : Byte) : b.getLsbD 0 = true ↔ b.toNat % 2 = 1 := by
  rw [BitVec.getLsbD, Nat.testBit_zero, decide_eq_true_iff]

/-- The three bytes of an entry's start address (R104). -/
theorem ofNat_littleEndian_three {b0 b1 b2 : Byte} {start : FlashAddr}
    (reads : start.toNat = b0.toNat + 256 * b1.toNat + 65536 * b2.toNat) :
    BitVec.ofNat 24 (littleEndian [b0, b1, b2]) = start := by
  rw [littleEndian_three, ← reads, BitVec.ofNat_toNat, BitVec.setWidth_eq]

end Sys2Proof.Machine

/-! ## Chapter 5 proofs: the load of a directory -/

namespace Sys2Proof.Machine

/-- Settles O47: the bytes of an entry; then the entries of a burst taken one by one, and the next run, the match or the
failure by the count and the checksum. -/
theorem directoryEntriesArrive : Obligations.DirectoryEntriesArrive := by
  refine ⟨fun b0 b1 b2 b3 b4 b5 b6 b7 b8 b9 b10 b11 start reads => ⟨?_, rfl⟩, ?_⟩
  · rw [← ofNat_littleEndian_three reads, ← littleEndian_three b3 b4 b5]
    rfl
  intro s chunks b p records invalid total port up delivers requester fresh count twelve loading progress phase
    records_ invalid_ total_
  have whole : chunks.flatten.length = b.count := (length_flatten_twelve twelve).trans count.symm
  have stored : s.dir.withEntries chunks = { s.dir with entries := records, invalid := invalid } := by
    rw [records_, invalid_]; rfl
  have taken : exec (.loaderBurstArrival chunks.flatten) s = .next _ :=
    (exec_loaderBurstArrival up delivers requester fresh whole).trans (congrArg _
      ((State.takeLoaderData_entries (s := { s with port := port }) loading rfl progress phase).trans
        (State.takeDirEntries_eq (s := { s with port := port }) (p := { p with request := none }) twelve stored total_)))
  rw [taken]
  refine ⟨fun more => ?_, fun last sum => ?_, fun last sum => ?_⟩
  · rw [if_pos more]; rfl
  · rw [if_neg last.not_lt, decide_eq_true sum, State.endLoad_matched]
  · rw [if_neg last.not_lt, decide_eq_false sum, State.endLoad_mismatched, ← last]

/-- Settles O16: each refusal is its branch of the body, and so is the acceptance. -/
theorem dirLoadBegins : Obligations.DirLoadBegins := by
  intro s takes
  refine ⟨fun busy => State.hostCommand_refuses takes (dirLoadBody_busy busy), fun idle load shared =>
    ⟨fun high => ?_, fun low base reads => ?_⟩⟩
  · refine State.hostCommand_refuses takes ?_
    rw [dirLoadBody_judges (s := s.latchCommand 0x30#8) idle load shared, if_pos high]
  · refine State.hostCommand_does takes (r := Reply.plain .ok) ?_ rfl rfl
    rw [dirLoadBody_judges (s := s.latchCommand 0x30#8) idle load shared, if_neg (not_not.mpr low), baseOfParams_eq low reads]
    rfl

/-- Settles O46: stale data is discarded; otherwise the header's three checks, and the first run of entries behind
them. -/
theorem directoryHeaderArrives : Obligations.DirectoryHeaderArrives := by
  intro s b0 b1 b2 b3 b4 b5 b6 b7 b number count port up delivers requester fresh eight count_
  subst count_
  rw [exec_loaderBurstArrival up delivers requester fresh (data := [b0, b1, b2, b3, b4, b5, b6, b7]) eight.symm]
  refine ⟨fun stale => congrArg _ (State.takeLoaderData_stale stale), fun p loading own progress phase => ?_⟩
  rw [State.takeLoaderData_header (s := { s with port := port }) loading own progress phase]
  refine ⟨fun code bad => congrArg _ (State.takeDirHeader_fails bad), fun ident ident' version low high => ?_⟩
  subst own ident ident' version
  rw [State.takeDirHeader_eq, if_neg (by decide), if_neg (by decide), if_neg (by omega)]
  rfl

/-- Settles O48: the judgement's conditions, read as numbers. -/
theorem entryJudgement : Obligations.EntryJudgement := by
  intro entry flags
  have tail : (1 ≤ entry.length % 128 ∧ entry.length % 128 ≤ 4) ↔
      (entry.length % 128 = 1 ∨ entry.length % 128 = 2 ∨ entry.length % 128 = 3 ∨ entry.length % 128 = 4) := by omega
  rw [← tail]
  simp only [entryValid, Bool.and_eq_true, Bool.or_eq_true, Bool.not_eq_true', ← Bool.not_eq_true, beq_iff_eq,
    decide_eq_true_eq, getLsbD_zero_iff, and_assoc, or_assoc]

end Sys2Proof.Machine

/-! ## Chapter 6 proofs: ZONE_SET that keeps the enable -/

namespace Sys2Proof.Machine

/-- Step 3 of R136 moves nothing where the enable asked for is the one that stands. -/
theorem State.setEnable_same {s : State} {z : Zone} {enable : Bool} (same : s.stages[z].enabled = enable) :
    s.setEnable z enable = s := by
  rw [State.setEnable, if_pos same]

/-- The enable parameter as a byte: at most 1, and read back as the enable it was written from (R135). -/
theorem enableByte_reads {b : Byte} {enabled : Bool} (byte : b = if enabled then 1#8 else 0#8) :
    b.toNat ≤ 1 ∧ (b == 1#8) = enabled := by
  subst byte
  cases enabled <;> decide

/-- The reply about a stage just set (11.3). -/
theorem State.setStage_zoneReply (s : State) (z : Zone) (g : Stage) :
    (s.setStage z g).zoneReply z
      = ⟨.ok, ⟨biasCode g.bias, byteOf g.volumeCurrent, if s.zones[z].owner.isSome then 1#8 else 0#8,
          if s.zones[z].claimant.isSome then 1#8 else 0#8⟩⟩ := by
  rw [← byteOf_bitOf, ← byteOf_bitOf, State.zoneReply, State.setStage_get_self]
  rfl

/-- A ZONE_SET with a parameter out of range (R135). -/
theorem zoneSetBody_badParam {p : Params} (s : State)
    (outside : 3 < p[0].toNat ∨ 1 < p[1].toNat ∨ 128 < p[2].toNat) :
    zoneSetBody p s = (s, some (Reply.plain .badParam)) := by
  unfold zoneSetBody
  split
  · next known => rw [if_pos (by omega)]
  · rfl

/-- Settles O13: steps 1 and 2 set the stage and step 3 finds the enable as it is; a parameter out of range is refused
before any of them. -/
theorem zoneSetKeepsEnable : Obligations.ZoneSetKeepsEnable := by
  intro s takes
  refine ⟨fun z zone enable volume => ⟨_, rfl, ?_⟩,
    fun outside => State.hostCommand_refuses takes (zoneSetBody_badParam _ outside)⟩
  obtain ⟨low, reads⟩ := enableByte_reads enable
  obtain ⟨t, eq, body⟩ := zoneSetBody_accepts (s := s.latchCommand 0x20#8) zone low volume
  have same : ((s.latchCommand 0x20#8).setStage z
      ((s.latchCommand 0x20#8).stageSet z s.mailbox.p[2].toNat s.mailbox.p[3].toNat)).stages[z].enabled
        = (s.mailbox.p[1] == 1#8) := by
    rw [State.setStage_get_self, (State.stageSet_eq _ z _ _).1, reads]
    rfl
  rw [eq.trans (State.setEnable_same same), State.setStage_zoneReply] at body
  exact State.hostCommand_does takes
    (w := { s with stages := s.stages.set z (s.stageSet z s.mailbox.p[2].toNat s.mailbox.p[3].toNat) }) body rfl rfl

end Sys2Proof.Machine

/-! ## Chapter 7 rules: the flash commands, the pass-through registers and the ends of a byte and of the hold -/

namespace Sys2Proof.Machine

/-! ### Parameters -/

/-- The flash clock codes of FLASH_CONFIG (11.3). -/
theorem flashClockOfCode_eq_some_iff {b : Byte} {clock : FlashClock} :
    flashClockOfCode b = some clock ↔ (b.toNat, clock) ∈ [(0, FlashClock.half), (1, FlashClock.full)] := by
  unfold flashClockOfCode
  simp only [← BitVec.toNat_inj, BitVec.reduceToNat, List.mem_cons, Prod.mk.injEq, List.not_mem_nil, or_false]
  split
  · next zero => simp [zero, eq_comm]
  · split
    · next one => simp [one, eq_comm]
    · simp [*]

/-- The mode codes of FLASH_CLAIM (11.3). -/
theorem claimModeOfCode_eq_some_iff {b : Byte} {mode : ClaimMode} :
    claimModeOfCode b = some mode ↔ (b.toNat, mode) ∈ [(0, ClaimMode.shared), (1, ClaimMode.exclusive)] := by
  unfold claimModeOfCode
  simp only [← BitVec.toNat_inj, BitVec.reduceToNat, List.mem_cons, Prod.mk.injEq, List.not_mem_nil, or_false]
  split
  · next zero => simp [zero, eq_comm]
  · split
    · next one => simp [one, eq_comm]
    · simp [*]

/-- A mode code above 1 names no mode. -/
theorem claimModeOfCode_none {b : Byte} (high : 1 < b.toNat) : claimModeOfCode b = none := by
  refine Option.eq_none_iff_forall_ne_some.mpr fun mode code => ?_
  have := claimModeOfCode_eq_some_iff.mp code
  simp only [List.mem_cons, Prod.mk.injEq, List.not_mem_nil, or_false] at this
  omega

section commands
variable {p : Params} {s : State}

/-! ### FLASH_CONFIG -/

theorem flashConfigBody_stores {clock : FlashClock} (code : flashClockOfCode p[0] = some clock) (dummy : p[2].toNat ≤ 1)
    (low : 1 ≤ p[3].toNat) (high : p[3].toNat ≤ 15) :
    flashConfigBody p s =
      (s.setPort { s.port with clock := clock, opcode := p[1], dummy := p[2].toNat, holdLimit := p[3].toNat },
        some (Reply.plain .ok)) := by
  simp only [flashConfigBody, code]
  exact if_neg (by omega)

/-- A parameter out of range is refused (R143). -/
theorem flashConfigBody_badParam
    (outside : 1 < p[0].toNat ∨ 1 < p[2].toNat ∨ p[3] = 0#8 ∨ 15 < p[3].toNat) :
    flashConfigBody p s = (s, some (Reply.plain .badParam)) := by
  unfold flashConfigBody
  split
  · rfl
  · next clock code =>
    have named := flashClockOfCode_eq_some_iff.mp code
    simp only [List.mem_cons, Prod.mk.injEq, List.not_mem_nil, or_false] at named
    rw [← BitVec.toNat_inj, BitVec.toNat_ofNat] at outside
    exact if_pos (by omega)

/-! ### FLASH_CLAIM -/

variable {mode : ClaimMode}

theorem flashClaimBody_badParam (high : 1 < p[0].toNat) : flashClaimBody p s = (s, some (Reply.plain .badParam)) := by
  simp only [flashClaimBody, claimModeOfCode_none high]

/-- The order of the judgements of a FLASH_CLAIM with a known mode (R148, R149). -/
theorem flashClaimBody_judges (code : claimModeOfCode p[0] = some mode) :
    flashClaimBody p s =
      if s.port.claim ≠ .none then (s, some (Reply.plain .badState))
      else if s.claimBusy mode then (s, some (Reply.plain .busy))
      else
        (s.setPort { s.port with claim := .waiting mode, revoked := false, ptOverrun := false, notOwner := false },
          some (Reply.plain .ok)) := by
  simp only [flashClaimBody, code]

/-- An EXCLUSIVE claim is refused beside a scheduled announcement or a load (R148). -/
theorem State.claimBusy_iff (s : State) (mode : ClaimMode) :
    s.claimBusy mode = true ↔
      mode = .exclusive ∧ ((∃ i : SlotId, s.slots[i].state.scheduled = true) ∨ s.dir.state = .loading) := by
  rw [State.claimBusy, Bool.and_eq_true, Bool.or_eq_true, beq_iff_eq, beq_iff_eq, State.anyScheduled_iff]

/-! ### FLASH_RELEASE -/

theorem flashReleaseBody_none (claim : s.port.claim = .none) :
    flashReleaseBody p s = (s, some (Reply.plain .badState)) := by
  simp only [flashReleaseBody, claim]

theorem flashReleaseBody_waiting (claim : s.port.claim = .waiting mode) :
    flashReleaseBody p s = (s.setPort { s.port with claim := .none }, some (Reply.plain .ok)) := by
  simp only [flashReleaseBody, claim]

variable {hold : Option Nat} {ending : Option EndPending}

theorem flashReleaseBody_held (claim : s.port.claim = .held mode hold ending) (free : s.port.ptByte = none) :
    flashReleaseBody p s = (s.setPort s.port.endClaim, some (Reply.plain .ok)) := by
  simp only [flashReleaseBody, claim, free, Option.isNone_none, if_true]

/-- With a byte in progress the reply waits for its end (R154). -/
theorem flashReleaseBody_beside (claim : s.port.claim = .held mode hold ending) (busy : s.port.ptByte ≠ none) :
    flashReleaseBody p s =
      (s.setPort { s.port with claim := .held mode hold (some (ending.getD .release)) }, none) := by
  simp only [flashReleaseBody, claim, Option.isNone_iff_eq_none, busy, if_false]

/-- A command whose reply waits: what the body leaves stands, with the mailbox EXECUTING (R154, R176). -/
theorem State.hostCommand_waits {s t : State} (takes : s.takesCommand) {code : Byte} {body : Body}
    (b : body s.mailbox.p (s.latchCommand code) = (t, none)) :
    s.hostCommand code body = { t with host := t.host.advance } := by
  obtain ⟨writes, idle⟩ := takes
  have latched : (s.latchCommand code).mailbox.latched = s.mailbox.p := rfl
  have done : s.cmdWrite code body = t := by
    simp only [State.cmdWrite, idle, Bool.false_eq_true, if_false, latched, b]
  rw [State.hostCommand, cmdAddr, State.hostWrite_takes writes, done]

end commands

/-! ### The pass-through registers -/

section passThrough
variable {p : Port} {v : Byte}

theorem Port.writePtctl_unowned (free : p.claim.isHeld = false) : p.writePtctl v = { p with notOwner := true } := by
  simp [Port.writePtctl, free]

theorem Port.writePtctl_overrun (held : p.claim.isHeld = true) (busy : p.ptByte ≠ none) :
    p.writePtctl v = { p with ptOverrun := true } := by
  simp [Port.writePtctl, held, Option.isSome_iff_ne_none, busy]

theorem Port.writePtctl_selects (held : p.claim.isHeld = true) (free : p.ptByte = none) :
    p.writePtctl v = { p with fcs := decide (v.toNat % 2 = 1) } := by
  have select : v.getLsbD 0 = decide (v.toNat % 2 = 1) := by
    rw [Bool.eq_iff_iff, getLsbD_zero_iff, decide_eq_true_eq]
  rw [Port.writePtctl, if_neg (by simp [held]), if_neg (by simp [free]), select]

theorem Port.writePtdat_unowned (free : p.claim.isHeld = false ∨ p.fcs = false) :
    p.writePtdat v = { p with notOwner := true } := by
  unfold Port.writePtdat
  exact if_pos (by simpa using free)

theorem Port.writePtdat_overrun (held : p.claim.isHeld = true) (selected : p.fcs = true) (busy : p.ptByte ≠ none) :
    p.writePtdat v = { p with ptOverrun := true } := by
  simp [Port.writePtdat, held, selected, Option.isSome_iff_ne_none, busy]

theorem Port.writePtdat_starts (held : p.claim.isHeld = true) (selected : p.fcs = true) (free : p.ptByte = none) :
    p.writePtdat v = { p with ptByte := some { sent := v, clock := p.clock } } := by
  simp [Port.writePtdat, held, selected, free]

end passThrough

/-- A write to PTCTL that reaches its register (R150, R172). -/
theorem exec_ptctlWrite {s : State} (takes : s.takesWrite 0x30#6) (v : Byte) :
    exec (.ptctlWrite v) s = .next { s with port := s.port.writePtctl v, host := s.host.advance } :=
  congrArg _ (State.hostWrite_takes takes _)

/-- A write to PTDAT that reaches its register (R151, R172). -/
theorem exec_ptdatWrite {s : State} (takes : s.takesWrite 0x31#6) (v : Byte) :
    exec (.ptdatWrite v) s = .next { s with port := s.port.writePtdat v, host := s.host.advance } :=
  congrArg _ (State.hostWrite_takes takes _)

/-! ### The end of a byte and of the hold -/

/-- The row of the end of a byte in progress (R151). -/
theorem exec_ptByteEnd {s : State} (up : s.resetnLow = false) (busy : s.port.ptByte ≠ none) (received : Byte) :
    exec (.ptByteEnd received) s
      = .next (s.setPort { s.port with ptByte := none, received := received }).completeEnd.endWaitingRelease := by
  have row : exec (.ptByteEnd received) s = .next (s.takeByteEnd received) := congrArg _ (State.whenRunning_up up _)
  rw [row, State.takeByteEnd, if_neg (by rwa [Option.isNone_iff_eq_none])]

/-- The end of a byte under a HELD claim completes the end pending on it (R151, R153, R154, R158). -/
theorem State.completeEnd_held {s : State} {mode : ClaimMode} {hold : Option Nat} {ending : Option EndPending} :
    s.port.claim = .held mode hold ending → s.completeEnd = match ending with
      | none => s
      | some .revoke => s.revoke
      | some _ => s.setPort s.port.endClaim := by
  intro claim
  rcases ending with _ | _ | _ | _ <;> simp only [State.completeEnd, claim]

/-- Only the mailbox hears of the release that waited (R154). -/
theorem State.endWaitingRelease_eq (s : State) :
    s.endWaitingRelease = { s with mailbox := if s.mailbox.executing then
      { s.mailbox with executing := false, result := .ok, q := ⟨0#8, 0#8, 0#8, 0#8⟩ } else s.mailbox } := by
  unfold State.endWaitingRelease
  split <;> rfl

/-- The row of a hold that has run out with no end pending (R153). -/
theorem exec_holdExpiry {s : State} {mode : ClaimMode} (up : s.resetnLow = false)
    (claim : s.port.claim = .held mode (some 0) none) :
    exec .holdExpiry s = .next (if s.port.ptByte.isNone then s.revoke
      else s.setPort { s.port with claim := .held mode (some 0) (some .revoke) }) := by
  have row : exec .holdExpiry s = .next s.takeHoldExpiry := congrArg _ (State.whenRunning_up up _)
  simp only [row, State.takeHoldExpiry, claim]

end Sys2Proof.Machine

/-! ## Chapter 7 proofs: the flash commands, the pass-through registers and the ends of a byte and of the hold -/

namespace Sys2Proof.Machine

/-- Settles O17: the acceptance and the refusal are the two branches of the body. -/
theorem flashConfigStoresSettings : Obligations.FlashConfigStoresSettings := by
  intro s clock takes
  refine ⟨fun code dummy low high => ?_, fun outside => State.hostCommand_refuses takes (flashConfigBody_badParam outside)⟩
  exact State.hostCommand_does takes (r := Reply.plain .ok)
    (flashConfigBody_stores (flashClockOfCode_eq_some_iff.mpr code) dummy low high) rfl rfl

/-- Settles O18: the mode, the claim that stands and what an EXCLUSIVE claim must wait for, judged in this order. -/
theorem flashClaimWaits : Obligations.FlashClaimWaits := by
  intro s mode takes
  refine ⟨fun high => State.hostCommand_refuses takes (flashClaimBody_badParam high), fun code => ?_⟩
  have judged := flashClaimBody_judges (s := s.latchCommand 0x41#8) (claimModeOfCode_eq_some_iff.mpr code)
  refine ⟨fun stands => ?_, fun free exclusive beside => ?_, fun free alone => ?_⟩
  · exact State.hostCommand_refuses takes (judged.trans (if_pos stands))
  · have busy : (s.latchCommand 0x41#8).claimBusy mode = true := (State.claimBusy_iff _ mode).mpr ⟨exclusive, beside⟩
    exact State.hostCommand_refuses takes (judged.trans ((if_neg (not_not.mpr free)).trans (if_pos busy)))
  · have idle : ¬ (s.latchCommand 0x41#8).claimBusy mode = true := by
      rw [State.claimBusy_iff]
      rintro ⟨exclusive, ⟨i, scheduled⟩ | loading⟩
      · exact Bool.eq_false_iff.mp ((alone exclusive).1 i) scheduled
      · exact (alone exclusive).2 loading
    exact State.hostCommand_does takes (r := Reply.plain .ok)
      (judged.trans ((if_neg (not_not.mpr free)).trans (if_neg idle))) rfl rfl

/-- Settles O19: the body by the claim it finds; its reply waits only beside a byte. -/
theorem flashReleaseEndsClaim : Obligations.FlashReleaseEndsClaim := by
  intro s takes
  refine ⟨fun claim => ?_, fun mode claim => ?_, fun mode hold ending claim free => ?_,
    fun mode hold ending claim busy => ?_⟩
  · exact State.hostCommand_refuses takes (flashReleaseBody_none (s := s.latchCommand 0x42#8) claim)
  · exact State.hostCommand_does takes (r := Reply.plain .ok)
      (flashReleaseBody_waiting (s := s.latchCommand 0x42#8) claim) rfl rfl
  · exact State.hostCommand_does takes (r := Reply.plain .ok)
      (flashReleaseBody_held (s := s.latchCommand 0x42#8) claim free) rfl rfl
  · exact congrArg _ (State.hostCommand_waits takes (flashReleaseBody_beside (s := s.latchCommand 0x42#8) claim busy))

/-- Settles O27: the two registers' branches, by claim, select and byte. -/
theorem passThroughWrites : Obligations.PassThroughWrites := by
  intro s v
  refine ⟨fun takes => ?_, fun takes => ?_⟩
  · rw [exec_ptctlWrite takes]
    refine ⟨fun free => ?_, fun held busy => ?_, fun held free => ?_⟩
    · rw [Port.writePtctl_unowned free]
    · rw [Port.writePtctl_overrun held busy]
    · rw [Port.writePtctl_selects held free]
  · rw [exec_ptdatWrite takes]
    refine ⟨fun free => ?_, fun held selected busy => ?_, fun held selected free => ?_⟩
    · rw [Port.writePtdat_unowned free]
    · rw [Port.writePtdat_overrun held selected busy]
    · rw [Port.writePtdat_starts held selected free]

/-- Settles O28: the byte's end by the end pending, the waiting release behind it; and the hold's end by the byte. -/
theorem passThroughByteAndHoldEnd : Obligations.PassThroughByteAndHoldEnd := by
  intro s up
  refine ⟨fun received mode hold ending port events mailbox busy claim port_ events_ mailbox_ => ?_, fun claim =>
    ⟨fun free => ?_, fun busy => ?_⟩⟩
  · subst port_ events_ mailbox_
    have completed := State.completeEnd_held (s := s.setPort { s.port with ptByte := none, received := received }) claim
    rw [exec_ptByteEnd up busy, completed, State.endWaitingRelease_eq]
    rcases ending with _ | _ | _ | _ <;> rfl
  · rw [exec_holdExpiry up claim, free]
    rfl
  · rw [exec_holdExpiry up claim, if_neg (by rwa [Option.isNone_iff_eq_none])]
    rfl

end Sys2Proof.Machine

/-! ## The law of the port, and the steps that keep it -/

namespace Sys2Proof.Machine

/-! ### The law of one port -/

/-- What the law of the port says of the port's record (R140, R145). -/
structure Port.Lawful (p : Port) : Prop where
  bursting : p.burst.isSome = true ↔ p.state = .engineBurst ∨ p.state = .directoryBurst
  held : p.claim.isHeld = true ↔ p.state = .hostHeld
  owned : p.ptByte.isSome = true → p.claim.isHeld = true
  asserted : p.burst.isSome = true → p.fcs = true
  released : p.state = .idle → p.fcs = false

/-- A byte in progress whose end completes the end pending on a HELD claim: what a FLASH_RELEASE may wait for (R154). -/
structure Port.Awaited (p : Port) : Prop where
  busy : p.ptByte.isSome = true
  held : p.claim.isHeld = true
  ending : p.claim.ending.isSome = true

/-- The law of the port together with that of the mailbox. -/
structure State.PortHolds (s : State) : Prop where
  lawful : s.port.Lawful
  awaited : s.mailbox.executing = true → s.port.Awaited

theorem State.portHolds_iff (s : State) : s.PortHolds ↔ s.PortLaw ∧ s.MailboxLaw := by
  constructor
  · rintro ⟨⟨bursting, held, owned, asserted, released⟩, awaited⟩
    refine ⟨⟨bursting, held, owned, asserted, released⟩, fun executing => ?_⟩
    obtain ⟨busy, held', ending⟩ := awaited executing
    exact ⟨busy, held', ending⟩
  · rintro ⟨⟨bursting, held, owned, asserted, released⟩, mailbox⟩
    refine ⟨⟨bursting, held, owned, asserted, released⟩, fun executing => ?_⟩
    obtain ⟨busy, held', ending⟩ := mailbox executing
    exact ⟨busy, held', ending⟩

section Lawful
variable {p q : Port}

/-- A claim that is not HELD leaves no byte in progress (R151). -/
theorem Port.Lawful.noByte (h : p.Lawful) (unheld : p.claim.isHeld = false) : p.ptByte = none := by
  rw [← Option.not_isSome_iff_eq_none]
  exact fun busy => Bool.eq_false_iff.mp unheld (h.owned busy)

/-- Outside HOST_HELD no claim is HELD (R140). -/
theorem Port.Lawful.unheld (h : p.Lawful) (other : p.state ≠ .hostHeld) : p.claim.isHeld = false :=
  Bool.eq_false_iff.mpr fun held => other (h.held.mp held)

/-- Outside the two burst states no burst stands in the record (R140). -/
theorem Port.Lawful.noBurst (h : p.Lawful) (other : p.state = .idle ∨ p.state = .hostHeld) : p.burst = none := by
  rw [← Option.not_isSome_iff_eq_none, h.bursting]
  rcases other with other | other <;> rw [other] <;> decide

/-- Beside a burst no claim is HELD (R140). -/
theorem Port.Lawful.unheld_of_burst (h : p.Lawful) {b : Burst} (burst : p.burst = some b) : p.claim.isHeld = false := by
  refine h.unheld ?_
  rcases h.bursting.mp (by rw [burst]; rfl) with state | state <;> rw [state] <;> decide

/-- The law looks at the state, the burst, the byte, FCS, and whether the claim is HELD. -/
theorem Port.Lawful.congr (h : p.Lawful) (state : q.state = p.state) (burst : q.burst = p.burst)
    (byte : q.ptByte = p.ptByte) (fcs : q.fcs = p.fcs) (claim : q.claim.isHeld = p.claim.isHeld) : q.Lawful := by
  obtain ⟨bursting, held, owned, asserted, released⟩ := h
  constructor <;> simp only [state, burst, byte, fcs, claim] <;> assumption

/-- A port that has nothing to do (R140, R145). -/
theorem Port.lawful_of_idle (state : q.state = .idle) (burst : q.burst = none) (claim : q.claim.isHeld = false)
    (byte : q.ptByte = none) (fcs : q.fcs = false) : q.Lawful := by
  constructor <;> simp [state, burst, claim, byte, fcs]

/-- A port under a HELD claim, whatever its byte and FCS (R140, R150). -/
theorem Port.lawful_of_held (state : q.state = .hostHeld) (burst : q.burst = none) (claim : q.claim.isHeld = true) :
    q.Lawful := by
  constructor <;> simp [state, burst, claim]

/-- A port in a burst (R140, R141). -/
theorem Port.lawful_of_burst {b : Burst} (state : q.state = .engineBurst ∨ q.state = .directoryBurst)
    (burst : q.burst = some b) (claim : q.claim.isHeld = false) (byte : q.ptByte = none) (fcs : q.fcs = true) :
    q.Lawful := by
  constructor <;> rcases state with state | state <;> simp [state, burst, claim, byte, fcs]

/-! ### The port's own operations -/

/-- A HELD claim ends where no byte is in progress (R153, R154, R158). -/
theorem Port.Lawful.endClaim (h : p.Lawful) (held : p.claim.isHeld = true) (free : p.ptByte = none) :
    p.endClaim.Lawful := Port.lawful_of_idle rfl (h.noBurst (.inr (h.held.mp held))) rfl free rfl

theorem Port.Lawful.endBurst (h : p.Lawful) {b : Burst} (burst : p.burst = some b) : p.endBurst.Lawful :=
  have unheld := h.unheld_of_burst burst
  Port.lawful_of_idle rfl rfl unheld (h.noByte unheld) rfl

/-- A burst whose data is taken has ended before, or ends now (R142, log 26). -/
theorem Port.Lawful.arrived (h : p.Lawful) {b : Burst} (arrives : p.arrival = some b) : p.arrived.Lawful := by
  cases before : p.arriving with
  | none =>
    obtain ⟨arrival, arrived⟩ := Port.arrival_of_none before
    rw [arrived]
    exact h.endBurst (arrival.symm.trans arrives)
  | some earlier =>
    obtain ⟨-, arrived⟩ := Port.arrival_of_some before
    rw [arrived]
    exact h.congr rfl rfl rfl rfl rfl

theorem Port.Lawful.writePtctl (h : p.Lawful) (v : Byte) : (p.writePtctl v).Lawful := by
  cases held : p.claim.isHeld with
  | false =>
    rw [Port.writePtctl_unowned held]
    exact h.congr rfl rfl rfl rfl rfl
  | true =>
    by_cases free : p.ptByte = none
    · have state := h.held.mp held
      rw [Port.writePtctl_selects held free]
      exact Port.lawful_of_held state (h.noBurst (.inr state)) held
    · rw [Port.writePtctl_overrun held free]
      exact h.congr rfl rfl rfl rfl rfl

theorem Port.Lawful.writePtdat (h : p.Lawful) (v : Byte) : (p.writePtdat v).Lawful := by
  by_cases selected : p.claim.isHeld = false ∨ p.fcs = false
  · rw [Port.writePtdat_unowned selected]
    exact h.congr rfl rfl rfl rfl rfl
  · rw [not_or, Bool.not_eq_false, Bool.not_eq_false] at selected
    obtain ⟨held, selected⟩ := selected
    by_cases free : p.ptByte = none
    · have state := h.held.mp held
      rw [Port.writePtdat_starts held selected free]
      exact Port.lawful_of_held state (h.noBurst (.inr state)) held
    · rw [Port.writePtdat_overrun held selected free]
      exact h.congr rfl rfl rfl rfl rfl

/-- A soft reset ends a claim, or marks it to end with the byte in progress (R158). -/
theorem Port.Lawful.softReset (h : p.Lawful) : p.softReset.Lawful := by
  unfold Port.softReset
  split
  · exact h
  · next mode claim => exact h.congr rfl rfl rfl rfl (by rw [claim]; rfl)
  · next mode hold ending claim =>
    split
    · next free => exact h.endClaim (by rw [claim]; rfl) (Option.isNone_iff_eq_none.mp free)
    · exact h.congr rfl rfl rfl rfl (by rw [claim]; rfl)

/-- What a FLASH_RELEASE waits for stands as long as the claim and the byte do. -/
theorem Port.Awaited.congr (h : p.Awaited) (claim : q.claim = p.claim) (byte : q.ptByte = p.ptByte) : q.Awaited := by
  obtain ⟨busy, held, ending⟩ := h
  constructor <;> simp only [claim, byte] <;> assumption

/-- Beside a byte the pass-through registers take no write (R150, R151). -/
theorem Port.Awaited.writePtctl (h : p.Awaited) (v : Byte) : (p.writePtctl v).Awaited := by
  rw [Port.writePtctl_overrun h.held (Option.isSome_iff_ne_none.mp h.busy)]
  exact h.congr rfl rfl

theorem Port.Awaited.writePtdat (h : p.Awaited) (v : Byte) : (p.writePtdat v).Awaited := by
  by_cases selected : p.fcs = true
  · rw [Port.writePtdat_overrun h.held selected (Option.isSome_iff_ne_none.mp h.busy)]
    exact h.congr rfl rfl
  · rw [Port.writePtdat_unowned (.inr (Bool.eq_false_iff.mpr selected))]
    exact h.congr rfl rfl

end Lawful

/-! ### What the laws ask of a step -/

/-- A step that leaves the port, and the mailbox IDLE or EXECUTING as it was. -/
theorem State.PortHolds.of_frame {s t : State} (law : s.PortHolds) (port : t.port = s.port)
    (executing : t.mailbox.executing = s.mailbox.executing) : t.PortHolds := by
  obtain ⟨lawful, awaited⟩ := law
  exact ⟨port ▸ lawful, fun e => port ▸ awaited (executing ▸ e)⟩

/-- Without a HELD claim no command waits (R154). -/
theorem State.PortHolds.idle {s : State} (law : s.PortHolds) (unheld : s.port.claim.isHeld = false) :
    s.mailbox.executing = false :=
  Bool.eq_false_iff.mpr fun executing => Bool.eq_false_iff.mp unheld (law.awaited executing).held

/-- While no command waits the port alone is asked. -/
theorem State.portHolds_of_idle {s : State} (lawful : s.port.Lawful) (idle : s.mailbox.executing = false) : s.PortHolds :=
  ⟨lawful, fun executing => absurd executing (Bool.eq_false_iff.mp idle)⟩

/-! ### Claims, owners and the end of a fade -/

theorem State.PortHolds.settleIdle {s : State} (law : s.PortHolds) (z : Zone) : (s.settleIdle z).PortHolds := by
  rw [State.settleIdle_eq]
  exact law.of_frame rfl rfl

theorem State.PortHolds.startCheckZone {s : State} (law : s.PortHolds) (z : Zone) : (s.startCheckZone z).PortHolds := by
  obtain ⟨slots, eq, -⟩ := s.startCheckZone_frame z
  rw [eq]
  exact law.of_frame rfl rfl

theorem State.PortHolds.withdrawClaims {s : State} (law : s.PortHolds) (h : Handle) : (s.withdrawClaims h).PortHolds := by
  obtain ⟨zones, stages, eq, -⟩ := s.withdrawClaims_eq h
  rw [eq]
  exact law.of_frame rfl rfl

theorem State.PortHolds.giveUp {s : State} (law : s.PortHolds) (i : SlotId) : (s.giveUp i).PortHolds := by
  obtain ⟨zones, stages, slots, eq, -⟩ := s.releaseZones_eq (s.handleAt i)
  unfold State.giveUp State.unbindOf
  rw [eq]
  split <;> exact law.of_frame rfl rfl

theorem State.PortHolds.freeSlot {s : State} (law : s.PortHolds) (i : SlotId) (o : AnnOutcome) :
    (s.freeSlot i o).PortHolds := law.of_frame rfl rfl

theorem State.PortHolds.requeue {s : State} (law : s.PortHolds) (i : SlotId) (a : RequeueAction) (by_ : Byte) :
    (s.requeue i a by_).PortHolds := law.of_frame rfl rfl

theorem State.PortHolds.requestPass {s : State} (law : s.PortHolds) : s.requestPass.PortHolds := law.of_frame rfl rfl

theorem State.PortHolds.endFade {s : State} (law : s.PortHolds) (i : SlotId) : (s.endFade i).PortHolds := by
  refine State.PortHolds.requestPass ?_
  rcases (s.giveUp i).dispose_cases i with ⟨o, eq⟩ | ⟨a, by_, eq⟩ <;> rw [eq]
  · exact (law.giveUp i).freeSlot i o
  · exact (law.giveUp i).requeue i a by_

/-! ### The commands -/

/-- Whatever the parameters, the body of a command keeps the law of the port, and a reply that it does not give waits
for the end of a byte. -/
def Body.KeepsPort (body : Body) : Prop :=
  ∀ (p : Params) (s : State), s.port.Lawful →
    (body p s).1.port.Lawful ∧ ((body p s).2 = none → (body p s).1.port.Awaited)

/-- A step apart from directory and port keeps the law of the port. -/
theorem Port.Lawful.of_memory {s t : State} (law : s.port.Lawful) (memory : t.memory = s.memory) : t.port.Lawful := by
  obtain ⟨-, port⟩ := Prod.mk.inj memory
  exact port ▸ law

theorem annOpenBody_keepsPort : annOpenBody.KeepsPort := by
  intro p s law
  unfold annOpenBody
  repeat' split
  all_goals exact ⟨law, nofun⟩

theorem annAppendBody_keepsPort : annAppendBody.KeepsPort := by
  intro p s law
  unfold annAppendBody
  simp only
  repeat' split
  all_goals exact ⟨law, nofun⟩

theorem annSubmitBody_keepsPort : annSubmitBody.KeepsPort := by
  intro p s law
  unfold annSubmitBody
  simp only
  repeat' split
  all_goals exact ⟨law, nofun⟩

theorem annCancelBody_keepsPort : annCancelBody.KeepsPort := by
  intro p s law
  unfold annCancelBody
  split
  · exact ⟨law, nofun⟩
  · next i _ =>
    split
    · exact ⟨law, nofun⟩
    · exact ⟨law, nofun⟩
    · exact ⟨law, nofun⟩
    · refine ⟨law.of_memory ?_, nofun⟩
      simp only [State.requestPass_memory, State.freeSlot_memory, State.withdrawClaims_memory]
    · refine ⟨law.of_memory ?_, nofun⟩
      simp only [State.requestPass_memory, State.enterStopping_memory]
    · unfold cancelStopping
      split <;> exact ⟨law, nofun⟩

theorem annStatusBody_keepsPort : annStatusBody.KeepsPort := by
  intro p s law
  unfold annStatusBody
  split <;> exact ⟨law, nofun⟩

theorem zoneSetBody_keepsPort : zoneSetBody.KeepsPort := by
  intro p s law
  have hold {t : State} (law : t.port.Lawful) (z : Zone) (n : Nat) : (t.setIdleHold z n).port.Lawful := by
    unfold State.setIdleHold
    split
    · exact law
    · exact law.of_memory (State.settleIdle_memory _ z)
  unfold zoneSetBody
  split
  · split
    · exact ⟨law, nofun⟩
    · exact ⟨(hold (t := s.setVolume _ _) law _ _).of_memory (State.setEnable_eases _ _ _).memory, nofun⟩
  · exact ⟨law, nofun⟩

theorem dirLoadBody_keepsPort : dirLoadBody.KeepsPort := by
  intro p s law
  unfold dirLoadBody
  repeat' split
  all_goals exact ⟨law, nofun⟩

theorem flashConfigBody_keepsPort : flashConfigBody.KeepsPort := by
  intro p s law
  unfold flashConfigBody
  repeat' split
  all_goals exact ⟨law.congr rfl rfl rfl rfl rfl, nofun⟩

/-- A claim that begins to wait is not HELD, as none was before (R148). -/
theorem flashClaimBody_keepsPort : flashClaimBody.KeepsPort := by
  intro p s law
  unfold flashClaimBody
  split
  · exact ⟨law, nofun⟩
  · split
    · exact ⟨law, nofun⟩
    · next claim =>
      split
      · exact ⟨law, nofun⟩
      · rw [not_not] at claim
        exact ⟨law.congr rfl rfl rfl rfl (by rw [claim]; rfl), nofun⟩

/-- A release beside a byte in progress is the one command that gives no reply: it waits for the byte's end, with an end
pending (R154). -/
theorem flashReleaseBody_keepsPort : flashReleaseBody.KeepsPort := by
  intro p s law
  cases claim : s.port.claim with
  | none =>
    rw [flashReleaseBody_none claim]
    exact ⟨law, nofun⟩
  | waiting mode =>
    rw [flashReleaseBody_waiting claim]
    exact ⟨law.congr rfl rfl rfl rfl (by rw [claim]; rfl), nofun⟩
  | held mode hold ending =>
    by_cases free : s.port.ptByte = none
    · rw [flashReleaseBody_held claim free]
      exact ⟨law.endClaim (by rw [claim]; rfl) free, nofun⟩
    · rw [flashReleaseBody_beside claim free]
      exact ⟨law.congr rfl rfl rfl rfl (by rw [claim]; rfl), fun _ => ⟨Option.isSome_iff_ne_none.mpr free, rfl, rfl⟩⟩

theorem softResetBody_keepsPort : softResetBody.KeepsPort := by
  intro p s law
  obtain ⟨slots, poolFree, order, eq⟩ := s.softReset_eq
  rw [softResetBody, eq]
  exact ⟨law.softReset, nofun⟩

theorem badCommandBody_keepsPort : badCommandBody.KeepsPort := fun _ _ law => ⟨law, nofun⟩

/-! ### The mailbox and the host's bytes -/

/-- A command ends in the step that latched it, or it waits for the end of a byte (R154, R176). -/
theorem State.PortHolds.cmdWrite {body : Body} (keeps : body.KeepsPort) {s : State} (law : s.PortHolds) (code : Byte) :
    (s.cmdWrite code body).PortHolds := by
  obtain ⟨lawful, awaited⟩ := keeps (s.latchCommand code).mailbox.latched (s.latchCommand code) law.lawful
  unfold State.cmdWrite
  split
  · exact law.of_frame rfl rfl
  · simp only
    split
    · exact State.portHolds_of_idle lawful rfl
    · next waits => exact ⟨lawful, fun _ => awaited waits⟩

/-- A data byte of the host keeps the laws where its register's owning block does (R172). -/
theorem State.PortHolds.hostWrite {s : State} (law : s.PortHolds) {a : RegAddr} {act : State → State}
    (h : (act s).PortHolds) : (s.hostWrite a act).PortHolds := by
  rcases s.hostWrite_cases a act with eq | ⟨-, eq⟩ | ⟨-, -, eq⟩ <;> rw [eq]
  · exact law
  · exact h.of_frame rfl rfl
  · exact law.of_frame rfl rfl

theorem State.PortHolds.hostCommand {body : Body} (keeps : body.KeepsPort) {s : State} (law : s.PortHolds)
    (code : Byte) : (s.hostCommand code body).PortHolds := law.hostWrite (law.cmdWrite keeps code)

theorem commandTable_keepsPort : ∀ row ∈ commandTable, row.2.KeepsPort := by
  simp only [commandTable, List.forall_mem_cons]
  exact ⟨annOpenBody_keepsPort, annAppendBody_keepsPort, annSubmitBody_keepsPort, annCancelBody_keepsPort,
    annStatusBody_keepsPort, zoneSetBody_keepsPort, dirLoadBody_keepsPort, flashConfigBody_keepsPort,
    flashClaimBody_keepsPort, flashReleaseBody_keepsPort, softResetBody_keepsPort, nofun⟩

theorem bodyOfCode_keepsPort (code : Byte) : (bodyOfCode code).KeepsPort := by
  unfold bodyOfCode
  cases found : commandTable.lookup code with
  | none => exact badCommandBody_keepsPort
  | some body =>
    obtain ⟨before, after, eq, -⟩ := List.lookup_eq_some_iff.mp found
    exact commandTable_keepsPort (code, body) (by simp [eq])

theorem State.PortHolds.writePtctl {s : State} (law : s.PortHolds) (v : Byte) :
    (s.setPort (s.port.writePtctl v)).PortHolds :=
  ⟨law.lawful.writePtctl v, fun executing => (law.awaited executing).writePtctl v⟩

theorem State.PortHolds.writePtdat {s : State} (law : s.PortHolds) (v : Byte) :
    (s.setPort (s.port.writePtdat v)).PortHolds :=
  ⟨law.lawful.writePtdat v, fun executing => (law.awaited executing).writePtdat v⟩

theorem State.PortHolds.writeRegister {s : State} (law : s.PortHolds) (a : RegAddr) (v : Byte) :
    (s.writeRegister a v).PortHolds := by
  unfold State.writeRegister
  split
  · exact law.of_frame rfl rfl
  · repeat' split
    · exact law.cmdWrite (bodyOfCode_keepsPort v) v
    · exact law.of_frame rfl rfl
    · exact law.of_frame rfl rfl
    · exact law.of_frame rfl rfl
    · exact law.of_frame rfl rfl
    · exact law.writePtctl v
    · exact law.writePtdat v
    · exact law

theorem State.PortHolds.fallHcs {s : State} (law : s.PortHolds) : s.fallHcs.PortHolds := by
  unfold State.fallHcs
  repeat' split
  all_goals exact law.of_frame rfl rfl

theorem State.PortHolds.takeAddress {s : State} (law : s.PortHolds) (b : Byte) : (s.takeAddress b).PortHolds := by
  unfold State.takeAddress
  repeat' split
  all_goals exact law.of_frame rfl rfl

/-! ### The scheduler's own events -/

theorem State.PortHolds.takePass {s : State} (law : s.PortHolds) : s.takePass.PortHolds := by
  have visited : (s.candidates.foldl Pass.visit s.passBegun).state.PortHolds := by
    rw [s.candidates_passedOver.frame]
    exact law.of_frame rfl rfl
  unfold State.takePass
  split
  · simp only
    rw [← State.passBegun]
    generalize (s.candidates.foldl Pass.visit s.passBegun).state = t at visited
    obtain ⟨slots, checked, -⟩ := State.startChecks_eq allSlots t
    rw [checked]
    exact visited.of_frame rfl rfl
  · exact law

theorem State.PortHolds.takeStart {s : State} (law : s.PortHolds) (i : SlotId) : (s.takeStart i).PortHolds := by
  have dropped (x : Slot) : (s.setSlot i x).PortHolds := law.of_frame rfl rfl
  unfold State.takeStart
  simp only
  repeat' split
  · next e _ =>
    obtain ⟨zones, stages, eq, -⟩ := s.startOn_eq i e
    rw [eq]
    exact law.of_frame rfl rfl
  · exact dropped _
  · exact dropped _
  · exact law

theorem State.PortHolds.takeExpiry {s : State} (law : s.PortHolds) (i : SlotId) : (s.takeExpiry i).PortHolds := by
  unfold State.takeExpiry
  split
  · exact ((law.withdrawClaims (s.handleAt i)).freeSlot i _).requestPass
  · exact law

theorem State.PortHolds.takeFadeEnd {s : State} (law : s.PortHolds) (e : EngineId) : (s.takeFadeEnd e).PortHolds := by
  unfold State.takeFadeEnd
  repeat' split
  · exact law
  · exact law.endFade _
  · exact law.of_frame rfl rfl

theorem State.PortHolds.takeCompletion {s : State} (law : s.PortHolds) (e : EngineId) :
    (s.takeCompletion e).PortHolds := by
  unfold State.takeCompletion
  repeat' split
  · exact law
  · exact ((law.giveUp _).freeSlot _ _).requestPass
  · exact law.of_frame rfl rfl

/-! ### Zone stages, ticks and engines -/

theorem State.PortHolds.takeIdleExpiry {s : State} (law : s.PortHolds) (z : Zone) : (s.takeIdleExpiry z).PortHolds := by
  unfold State.takeIdleExpiry
  split <;> exact law.of_frame rfl rfl

theorem State.PortHolds.takeZoneFadeEnd {s : State} (law : s.PortHolds) (z : Zone) :
    (s.takeZoneFadeEnd z).PortHolds := by
  unfold State.takeZoneFadeEnd
  split
  · exact law
  · split
    · exact law
    · have ended : (s.setStage z { s.stages[z] with fade := none }).PortHolds := law.of_frame rfl rfl
      simp only
      split
      · exact ended.startCheckZone z
      · unfold State.afterZoneFade
        split
        · exact ended.settleIdle z
        · exact ended.of_frame rfl rfl
        · exact ended.of_frame rfl rfl

theorem State.PortHolds.takeBiasReady {s : State} (law : s.PortHolds) (z : Zone) : (s.takeBiasReady z).PortHolds := by
  have ready : ((s.setStage z { s.stages[z] with bias := .ready }).offer (EventRecord.zone z .ready)).PortHolds :=
    law.of_frame rfl rfl
  unfold State.takeBiasReady
  simp only
  repeat' split
  · exact ready.startCheckZone z
  · exact ready.settleIdle z
  · exact law

theorem State.PortHolds.takeBiasOff {s : State} (law : s.PortHolds) (z : Zone) : (s.takeBiasOff z).PortHolds := by
  unfold State.takeBiasOff
  split <;> exact law.of_frame rfl rfl

theorem State.PortHolds.takeFrame {s : State} (law : s.PortHolds) : s.takeFrame.PortHolds := by
  rw [State.takeFrame_eq]
  exact law.of_frame rfl rfl

theorem State.PortHolds.takeSlew {s : State} (law : s.PortHolds) : s.takeSlew.PortHolds := by
  unfold State.takeSlew
  split <;> exact law.of_frame rfl rfl

theorem State.PortHolds.takeGapEnd {s : State} (law : s.PortHolds) (e : EngineId) : (s.takeGapEnd e).PortHolds := by
  unfold State.takeGapEnd
  split <;> exact law.of_frame rfl rfl

theorem State.PortHolds.takeRepeatGapEnd {s : State} (law : s.PortHolds) (e : EngineId) :
    (s.takeRepeatGapEnd e).PortHolds := by
  unfold State.takeRepeatGapEnd
  split <;> exact law.of_frame rfl rfl

/-- A tick leaves a HELD claim HELD, with the end pending on it (R153). -/
theorem Claim.tick_keeps (c : Claim) : c.tick.isHeld = c.isHeld ∧ c.tick.ending = c.ending := by
  cases c <;> exact ⟨rfl, rfl⟩

theorem State.PortHolds.takeTick {s : State} (law : s.PortHolds) : s.takeTick.PortHolds := by
  obtain ⟨held, ending⟩ := s.port.claim.tick_keeps
  unfold State.takeTick
  split
  · exact law
  · refine ⟨law.lawful.congr rfl rfl rfl rfl held, fun executing => ?_⟩
    obtain ⟨busy, was, pending⟩ := law.awaited executing
    exact ⟨busy, held.trans was, ending ▸ pending⟩

/-! ### Bursts and grants -/

/-- The end of a burst leaves the claim and the byte that a FLASH_RELEASE waits for (R142). -/
theorem State.PortHolds.arrived {s : State} (law : s.PortHolds) {b : Burst} (arrives : s.port.arrival = some b) :
    (s.setPort s.port.arrived).PortHolds := by
  have byte : s.port.arrived.ptByte = s.port.ptByte := by
    unfold Port.arrived
    split <;> rfl
  exact ⟨law.lawful.arrived arrives, fun executing => (law.awaited executing).congr s.port.arrived_claim byte⟩

theorem State.PortHolds.takeEngineArrival {s : State} (law : s.PortHolds) (data : List Byte) :
    (s.takeEngineArrival data).PortHolds := by
  unfold State.takeEngineArrival
  split
  · next b arrives =>
    repeat' split
    · unfold State.takeEngineData
      repeat' split
      all_goals exact (law.arrived arrives).of_frame rfl rfl
    all_goals exact law
  · exact law

theorem State.PortHolds.takeLoaderData {s : State} (law : s.PortHolds) (number : BitVec 8) (data : List Byte) :
    (s.takeLoaderData number data).PortHolds := by
  unfold State.takeLoaderData
  split
  · split
    · exact law
    · split
      · simp only [State.takeDirHeader]
        repeat' split
        all_goals exact law.of_frame rfl rfl
      · simp only [State.takeDirEntries, State.endLoad]
        repeat' split
        all_goals exact law.of_frame rfl rfl
  · exact law

theorem State.PortHolds.takeLoaderArrival {s : State} (law : s.PortHolds) (data : List Byte) :
    (s.takeLoaderArrival data).PortHolds := by
  unfold State.takeLoaderArrival
  split
  · next b arrives =>
    repeat' split
    · exact (law.arrived arrives).takeLoaderData _ _
    all_goals exact law
  · exact law

/-- A grant at an IDLE port begins a burst or a HELD claim (R141, R145, R149). -/
theorem State.PortHolds.arbitrate {s : State} (law : s.PortHolds) (free : s.port.state = .idle) :
    s.arbitrate.PortHolds := by
  have unheld : s.port.claim.isHeld = false := law.lawful.unheld (by rw [free]; decide)
  have idle := law.idle unheld
  have noByte := law.lawful.noByte unheld
  unfold State.arbitrate
  split
  · next mode _ =>
    rw [State.grantClaim_eq]
    exact State.portHolds_of_idle (Port.lawful_of_held rfl (law.lawful.noBurst (.inl free)) rfl) idle
  · split
    · unfold State.grantEngine
      split
      · exact State.portHolds_of_idle (Port.lawful_of_burst (.inl rfl) rfl unheld noByte rfl) idle
      · exact law
    · unfold State.grantLoader
      repeat' split
      · exact law
      · exact State.portHolds_of_idle (Port.lawful_of_burst (.inr rfl) rfl unheld noByte rfl) idle
      all_goals exact law

/-- A grant beside a burst is that of the IDLE port the burst leaves (R142, log 26). -/
theorem State.PortHolds.takeGrant {s : State} (law : s.PortHolds) : s.takeGrant.PortHolds := by
  rcases s.takeGrant_cases with ⟨free, eq⟩ | ⟨state, -, -, eq⟩ | ⟨-, eq⟩ <;> rw [eq]
  · exact law.arbitrate free
  · obtain ⟨b, burst⟩ := Option.isSome_iff_exists.mp (law.lawful.bursting.mpr state)
    have ended : (s.setPort s.port.endBeforeArrival).PortHolds := State.portHolds_of_idle
      ((law.lawful.endBurst burst).congr rfl rfl rfl rfl rfl) (law.idle (law.lawful.unheld_of_burst burst))
    exact ended.arbitrate rfl
  · exact law

/-! ### The ends of a byte and of the hold -/

/-- With no end pending no FLASH_RELEASE waits, so that the hold may end (R153). -/
theorem State.PortHolds.takeHoldExpiry {s : State} (law : s.PortHolds) : s.takeHoldExpiry.PortHolds := by
  unfold State.takeHoldExpiry
  split
  · next mode claim =>
    have held : s.port.claim.isHeld = true := by rw [claim]; rfl
    have idle : s.mailbox.executing = false := by
      rw [← Bool.not_eq_true]
      intro executing
      have ending := (law.awaited executing).ending
      rw [claim] at ending
      cases ending
    split
    · next free =>
      have ended := law.lawful.endClaim held (Option.isNone_iff_eq_none.mp free)
      exact State.portHolds_of_idle (ended.congr rfl rfl rfl rfl rfl) idle
    · exact State.portHolds_of_idle (law.lawful.congr rfl rfl rfl rfl held.symm) idle
  · exact law

/-- The end of a byte leaves a HELD claim without one, or ends the claim; and no command waits on (R151, R154). -/
theorem State.PortHolds.takeByteEnd {s : State} (law : s.PortHolds) (received : Byte) :
    (s.takeByteEnd received).PortHolds := by
  have answered (t : State) (lawful : t.port.Lawful) : t.endWaitingRelease.PortHolds := by
    unfold State.endWaitingRelease
    split
    · exact State.portHolds_of_idle lawful rfl
    · next idle => exact State.portHolds_of_idle lawful (Bool.eq_false_iff.mpr idle)
  unfold State.takeByteEnd
  split
  · exact law
  · next busy =>
    refine answered _ ?_
    have held : s.port.claim.isHeld = true := law.lawful.owned (Option.isSome_iff_ne_none.mpr (by simpa using busy))
    have state := law.lawful.held.mp held
    have freed : ({ s.port with ptByte := none, received := received } : Port).Lawful :=
      Port.lawful_of_held state (law.lawful.noBurst (.inr state)) held
    have ended := freed.endClaim held rfl
    unfold State.completeEnd
    split
    · exact ended.congr rfl rfl rfl rfl rfl
    · exact ended
    · exact ended
    all_goals exact freed

/-! ### Every step -/

/-- The reset values meet the laws (R157, R182). -/
theorem State.PortHolds.of_reset {s : State} (port : s.port = State.reset.port)
    (mailbox : s.mailbox = State.reset.mailbox) : s.PortHolds := by
  obtain ⟨-, -, -, -, portLaw, mailboxLaw, -⟩ := resetMeetsTheLaws
  exact ((State.portHolds_iff _).mpr ⟨portLaw, mailboxLaw⟩).of_frame port (by rw [mailbox])

theorem State.PortHolds.whenRunning {s : State} (law : s.PortHolds) {act : State → State} (h : (act s).PortHolds) :
    (s.whenRunning act).PortHolds := by
  unfold State.whenRunning
  split
  · exact law
  · exact h

/-- Every command keeps the laws of the port and the mailbox. -/
theorem exec_portHolds (c : Instr) {s : State} (law : s.PortHolds) : ∃ t, exec c s = .next t ∧ t.PortHolds := by
  cases c with
  | annOpen => exact ⟨_, rfl, law.hostCommand annOpenBody_keepsPort _⟩
  | annAppend => exact ⟨_, rfl, law.hostCommand annAppendBody_keepsPort _⟩
  | annSubmit => exact ⟨_, rfl, law.hostCommand annSubmitBody_keepsPort _⟩
  | annCancel => exact ⟨_, rfl, law.hostCommand annCancelBody_keepsPort _⟩
  | annStatus => exact ⟨_, rfl, law.hostCommand annStatusBody_keepsPort _⟩
  | zoneSet => exact ⟨_, rfl, law.hostCommand zoneSetBody_keepsPort _⟩
  | dirLoad => exact ⟨_, rfl, law.hostCommand dirLoadBody_keepsPort _⟩
  | flashConfig => exact ⟨_, rfl, law.hostCommand flashConfigBody_keepsPort _⟩
  | flashClaim => exact ⟨_, rfl, law.hostCommand flashClaimBody_keepsPort _⟩
  | flashRelease => exact ⟨_, rfl, law.hostCommand flashReleaseBody_keepsPort _⟩
  | softReset => exact ⟨_, rfl, law.hostCommand softResetBody_keepsPort _⟩
  | badCommand code =>
    refine ⟨_, rfl, ?_⟩
    split
    · exact law
    · exact law.hostCommand badCommandBody_keepsPort _
  | cmdWriteDiscarded code =>
    refine ⟨_, rfl, ?_⟩
    split
    · exact law.hostWrite (law.of_frame rfl rfl)
    · exact law
  | registerWrite a v => exact ⟨_, rfl, law.hostWrite (law.writeRegister a v)⟩
  | evpop v => exact ⟨_, rfl, law.hostWrite (law.of_frame rfl rfl)⟩
  | evmskWrite reg v => exact ⟨_, rfl, law.hostWrite (law.of_frame rfl rfl)⟩
  | irqcWrite v => exact ⟨_, rfl, law.hostWrite (law.of_frame rfl rfl)⟩
  | ptctlWrite v => exact ⟨_, rfl, law.hostWrite (law.writePtctl v)⟩
  | ptdatWrite v => exact ⟨_, rfl, law.hostWrite (law.writePtdat v)⟩
  | ptByteEnd received => exact ⟨_, rfl, law.whenRunning (law.takeByteEnd received)⟩
  | powerOnReset => exact ⟨_, rfl, .of_reset rfl rfl⟩
  | pinReset => exact ⟨_, rfl, .of_reset rfl rfl⟩
  | frame => exact ⟨_, rfl, law.whenRunning law.takeFrame⟩
  | tick => exact ⟨_, rfl, law.whenRunning law.takeTick⟩
  | volumeSlewStep => exact ⟨_, rfl, law.whenRunning law.takeSlew⟩
  | deadlineExpiry i => exact ⟨_, rfl, law.whenRunning (law.takeExpiry i)⟩
  | idleTimerExpiry z => exact ⟨_, rfl, law.whenRunning (law.takeIdleExpiry z)⟩
  | holdExpiry => exact ⟨_, rfl, law.whenRunning law.takeHoldExpiry⟩
  | schedulingPass => exact ⟨_, rfl, law.whenRunning law.takePass⟩
  | start i => exact ⟨_, rfl, law.whenRunning (law.takeStart i)⟩
  | engineFadeDone e => exact ⟨_, rfl, law.whenRunning (law.of_frame rfl rfl)⟩
  | fadeEnd e => exact ⟨_, rfl, law.whenRunning (law.takeFadeEnd e)⟩
  | completion e => exact ⟨_, rfl, law.whenRunning (law.takeCompletion e)⟩
  | zoneFadeEnd z => exact ⟨_, rfl, law.whenRunning (law.takeZoneFadeEnd z)⟩
  | biasReady z => exact ⟨_, rfl, law.whenRunning (law.takeBiasReady z)⟩
  | biasOff z => exact ⟨_, rfl, law.whenRunning (law.takeBiasOff z)⟩
  | gapEnd e => exact ⟨_, rfl, law.whenRunning (law.takeGapEnd e)⟩
  | repeatGapEnd e => exact ⟨_, rfl, law.whenRunning (law.takeRepeatGapEnd e)⟩
  | portGrant => exact ⟨_, rfl, law.whenRunning law.takeGrant⟩
  | engineBurstArrival data => exact ⟨_, rfl, law.whenRunning (law.takeEngineArrival data)⟩
  | loaderBurstArrival data => exact ⟨_, rfl, law.whenRunning (law.takeLoaderArrival data)⟩
  | resetnHeldLow => exact ⟨_, rfl, .of_reset rfl rfl⟩
  | hcsFall => exact ⟨_, rfl, law.fallHcs⟩
  | addressByte b => exact ⟨_, rfl, law.whenRunning (law.takeAddress b)⟩
  | hcsRise => exact ⟨_, rfl, law.of_frame rfl rfl⟩

/-- Settles O55: a grant needs an IDLE port, a claim ends with its byte, and FLASH_RELEASE beside a byte is the one
command whose reply waits, for a claim whose end is pending. -/
theorem everyStepKeepsPortLaw : Obligations.EveryStepKeepsPortLaw := by
  intro s t port mailbox h
  have law : s.PortHolds := s.portHolds_iff.mpr ⟨port, mailbox⟩
  refine t.portHolds_iff.mp ?_
  unfold step at h
  split at h
  · obtain rfl := Host.Outcome.next.inj h
    exact law
  · next c rest _ =>
    obtain ⟨u, eq, law'⟩ := exec_portHolds c (s := s.withPending rest) (law.of_frame rfl rfl)
    obtain rfl := Host.Outcome.next.inj (eq.symm.trans h)
    exact law'

end Sys2Proof.Machine

/-! ## Chapter 8 proofs: offers, the queue's registers, and RESETn held low -/

namespace Sys2Proof.Machine

/-! ### The queue with and without an OVERFLOW record -/

/-- The queue is not overflowing where no record of it is an OVERFLOW (R162). -/
theorem EventQueue.overflowing_eq_false_iff (q : EventQueue) :
    q.overflowing = false ↔ ∀ x ∈ q.records, x.kind ≠ .overflow := by
  simp [EventQueue.overflowing]

theorem EventQueue.overflowing_of_mem {q : EventQueue} {o : EventRecord} (mem : o ∈ q.records)
    (kind : o.kind = .overflow) : q.overflowing = true :=
  List.any_eq_true.mpr ⟨o, mem, beq_iff_eq.mpr kind⟩

theorem EventRecord.countDrop_overflow {r : EventRecord} (kind : r.kind = .overflow) :
    r.countDrop = { r with d0 := byteOf (satSucc255 r.d0.toNat) } := if_pos kind

theorem EventRecord.countDrop_other {r : EventRecord} (kind : r.kind ≠ .overflow) : r.countDrop = r := if_neg kind

/-- The count of dropped events rises by 1 up to 255 (R163). -/
theorem satSucc255_eq_min {n : Nat} (byte : n < 256) : satSucc255 n = min 255 (n + 1) := by
  unfold satSucc255
  split <;> omega

/-- With the OVERFLOW record behind other records, a drop is counted in it alone (R159, R163). -/
theorem map_countDrop_append {before : List EventRecord} {o : EventRecord} (newest : o.kind = .overflow)
    (others : ∀ x ∈ before, x.kind ≠ .overflow) :
    (before ++ [o]).map EventRecord.countDrop = before ++ [{ o with d0 := byteOf (min 255 (o.d0.toNat + 1)) }] := by
  have kept : before.map EventRecord.countDrop = before :=
    (List.map_congr_left fun x mem => EventRecord.countDrop_other (others x mem)).trans before.map_id
  rw [List.map_append, kept, List.map_singleton, EventRecord.countDrop_overflow newest, satSucc255_eq_min o.d0.isLt]

/-- Settles O26: the three cases of an enabled offer are those of `EventQueue.offer_cases`, told apart by whether an
OVERFLOW record stands in the queue. -/
theorem queueTakesOffers : Obligations.QueueTakesOffers := by
  intro q r
  refine ⟨EventQueue.offer_masked, fun on => ⟨fun before o records newest others => ?_, fun calm full => ?_,
    fun calm room => ?_⟩, rfl, rfl, rfl, rfl⟩
  · have overflowing := q.overflowing_of_mem (o := o) (by simp [records]) newest
    rw [EventQueue.offer_overflowing on overflowing, records, map_countDrop_append newest others]
  · exact EventQueue.offer_full on (q.overflowing_eq_false_iff.mpr calm) full.ge
  · exact EventQueue.offer_queued on (q.overflowing_eq_false_iff.mpr calm) room

/-! ### The queue's registers -/

/-- A data byte that reaches its register and acts on the event queue alone (R172). -/
theorem State.hostWrite_events {s : State} {a : RegAddr} (takes : s.takesWrite a) (change : EventQueue → EventQueue) :
    s.hostWrite a (fun t => t.setEvents (change t.events))
      = { s with events := change s.events, host := s.host.advance } := State.hostWrite_takes takes _

/-- The low bits of a byte as the enables of a mask register (R161, R183). -/
theorem setWidth_eq_of_toNat {n : Nat} {v : Byte} {m : BitVec n} (low : m.toNat = v.toNat % 2 ^ n) : v.setWidth n = m :=
  BitVec.eq_of_toNat_eq (by rw [BitVec.toNat_setWidth, low])

/-- IRQn follows the enable and the queue (R167, R168). -/
theorem State.irqnAsserted_iff (s : State) :
    s.irqnAsserted = true ↔ s.events.irqEnable = true ∧ s.events.records ≠ [] ∧ s.resetnLow = false := by
  simp [State.irqnAsserted, and_assoc]

/-- Settles O25: each of the four writes acts on its part of the queue, and IRQn is a function of what is left. -/
theorem queueRegisterWrites : Obligations.QueueRegisterWrites := by
  intro s v
  refine ⟨fun takes => ?_, fun takes m low => ?_, fun takes m low => ?_, fun takes => ?_, s.irqnAsserted_iff, rfl⟩
  · rw [List.drop_one]
    exact congrArg _ (State.hostWrite_events takes EventQueue.pop)
  · rw [← setWidth_eq_of_toNat low]
    exact congrArg _ (State.hostWrite_events takes fun q => q.writeMask .evmsk0 v)
  · rw [← setWidth_eq_of_toNat low]
    exact congrArg _ (State.hostWrite_events takes fun q => q.writeMask .evmsk1 v)
  · have enable : decide (v.toNat % 2 = 1) = v.getLsbD 0 := by
      rw [Bool.eq_iff_iff, getLsbD_zero_iff, decide_eq_true_eq]
    rw [enable]
    exact congrArg _ (State.hostWrite_events takes fun q => q.writeIrqc v)

/-! ### RESETn held low -/

section low
variable {s : State} (low : s.resetnLow = true)
include low

/-- While RESETn is low a fall of HCS begins no frame (R174). -/
theorem State.fallHcs_in_reset (floats : s.host = { hcsLow := s.host.hcsLow, frame := none, hsdo := none }) :
    s.fallHcs = { s with host := { hcsLow := true, frame := none, hsdo := none } } := by
  rw [State.fallHcs, if_pos low]
  split
  · next hcs =>
    rw [hcs] at floats
    rw [← floats]
  · rfl

/-- While RESETn is low a command, a byte or an event of the part's own changes nothing (R174, log 9). -/
theorem exec_in_reset (held : s.holdReset = s) {c : Instr}
    (other : c ∉ [Instr.powerOnReset, .pinReset, .hcsFall, .hcsRise]) : exec c s = .next s := by
  have byte (a : RegAddr) (act : State → State) : s.hostWrite a act = s := State.hostWrite_in_reset low a act
  have idle (act : State → State) : s.whenRunning act = s := State.whenRunning_low low act
  cases c with
  | powerOnReset | pinReset | hcsFall | hcsRise => exact absurd other (by decide)
  | badCommand code => exact congrArg _ (ite_eq_left_iff.mpr fun _ => byte _ _)
  | cmdWriteDiscarded code => exact congrArg _ (ite_eq_right_iff.mpr fun _ => byte _ _)
  | resetnHeldLow => exact congrArg _ held
  | annOpen | annAppend | annSubmit | annCancel | annStatus | zoneSet | dirLoad | flashConfig | flashClaim
  | flashRelease | softReset | registerWrite | evpop | evmskWrite | irqcWrite | ptctlWrite | ptdatWrite =>
    exact congrArg _ (byte _ _)
  | ptByteEnd | frame | tick | volumeSlewStep | deadlineExpiry | idleTimerExpiry | holdExpiry | schedulingPass
  | start | engineFadeDone | fadeEnd | completion | zoneFadeEnd | biasReady | biasOff | gapEnd | repeatGapEnd
  | portGrant | engineBurstArrival | loaderBurstArrival | addressByte => exact congrArg _ (idle _)

end low

/-- Settles O22: the part that RESETn holds stands as a second RESETN_HELD_LOW would leave it. -/
theorem resetnLowHoldsThePart : Obligations.ResetnLowHoldsThePart := by
  intro s
  have low : s.holdReset.resetnLow = true := rfl
  exact ⟨s.holdReset, rfl, rfl, rfl, congrArg _ (State.fallHcs_in_reset low rfl), rfl,
    fun _ other => exec_in_reset low rfl other⟩

end Sys2Proof.Machine

/-! ## The law of the event queue, and the steps that keep it -/

namespace Sys2Proof.Machine

/-! ### The law of one queue -/

/-- What the law of the event queue says of the queue (R162). -/
structure EventQueue.Lawful (q : EventQueue) : Prop where
  length : q.records.length ≤ 32
  newest : ∀ x ∈ q.records.dropLast, x.kind ≠ .overflow
  calm : (∀ x ∈ q.records, x.kind ≠ .overflow) → q.records.length ≤ 31

theorem State.eventLaw_iff (s : State) : s.EventLaw ↔ s.events.Lawful :=
  ⟨fun ⟨length, newest, calm⟩ => ⟨length, newest, calm⟩, fun ⟨length, newest, calm⟩ => ⟨length, newest, calm⟩⟩

section Lawful
variable {q : EventQueue}

/-- A record joins a queue without OVERFLOW: an OVERFLOW record as the 32nd at most, any other as the 31st (R162). -/
theorem EventQueue.lawful_append {r : EventRecord} (others : ∀ x ∈ q.records, x.kind ≠ .overflow)
    (length : q.records.length ≤ 31) (room : r.kind ≠ .overflow → q.records.length < 31) :
    EventQueue.Lawful { q with records := q.records ++ [r] } where
  length := by rw [List.length_append, List.length_singleton]; omega
  newest := by rw [List.dropLast_concat]; exact others
  calm calm := by
    have := room (calm r (by simp))
    rw [List.length_append, List.length_singleton]
    omega

/-- A drop that is counted leaves the number of records and their kinds (R163). -/
theorem EventQueue.Lawful.countDrop (law : q.Lawful) :
    EventQueue.Lawful { q with records := q.records.map EventRecord.countDrop } where
  length := by rw [List.length_map]; exact law.length
  newest := by
    rw [← List.map_dropLast, List.forall_mem_map]
    exact fun x mem => x.countDrop_kind ▸ law.newest x mem
  calm calm := by
    rw [List.forall_mem_map] at calm
    rw [List.length_map]
    exact law.calm fun x mem => x.countDrop_kind ▸ calm x mem

/-- An offer keeps the law, whatever its record: the queue stays, counts a drop, or takes one record more (R162). -/
theorem EventQueue.Lawful.offer (law : q.Lawful) (r : EventRecord) : (q.offer r).Lawful := by
  rcases q.offer_cases r with eq | ⟨-, eq⟩ | ⟨calm, -, eq⟩ | ⟨calm, room, eq⟩ <;> rw [eq]
  · exact law
  · exact law.countDrop
  · have others := q.overflowing_eq_false_iff.mp calm
    exact EventQueue.lawful_append others (law.calm others) fun kind => absurd rfl kind
  · exact EventQueue.lawful_append (q.overflowing_eq_false_iff.mp calm) room.le fun _ => room

/-- A pop leaves at most 31 records, and the newest of them where it was (R166). -/
theorem EventQueue.Lawful.pop (law : q.Lawful) : q.pop.Lawful := by
  have length : q.pop.records.length ≤ 31 := by
    have := law.length
    rw [EventQueue.pop, List.length_tail]
    omega
  refine ⟨length.trans (by decide), fun x mem => law.newest x (List.mem_of_mem_tail ?_), fun _ => length⟩
  rwa [List.tail_dropLast]

end Lawful

/-! ### What the law asks of a step -/

section State
variable {s t : State}

/-- A step that leaves the records of the queue, though maybe not its enables. -/
theorem State.EventLaw.of_records (law : s.EventLaw) (records : t.events.records = s.events.records) : t.EventLaw := by
  unfold State.EventLaw
  rw [records]
  exact law

/-- A step that leaves the event queue. -/
theorem State.EventLaw.of_events (law : s.EventLaw) (events : t.events = s.events) : t.EventLaw :=
  law.of_records (by rw [events])

/-- A step that offers one record and leaves the queue otherwise (R161). -/
theorem State.EventLaw.of_offer (law : s.EventLaw) {r : EventRecord} (events : t.events = s.events.offer r) :
    t.EventLaw := t.eventLaw_iff.mpr (events ▸ (s.eventLaw_iff.mp law).offer r)

/-- A step that offers the records of several blocks and leaves the queue otherwise (R164). -/
theorem State.EventLaw.offerFrom (law : s.EventLaw) (sources : List (List EventRecord)) :
    (s.offerFrom sources).EventLaw :=
  (State.eventLaw_iff _).mpr (mergeOffers_induction (fun _ r law => law.offer r) _ _ _ _ (s.eventLaw_iff.mp law))

theorem State.EventLaw.pop (law : s.EventLaw) : (s.setEvents s.events.pop).EventLaw :=
  (State.eventLaw_iff _).mpr (s.eventLaw_iff.mp law).pop

theorem State.EventLaw.writeMask (law : s.EventLaw) (reg : MaskReg) (v : Byte) :
    (s.setEvents (s.events.writeMask reg v)).EventLaw := by
  cases reg <;> exact law.of_records rfl

/-- A queue of at most one record, as the resets leave it (R168, R169). -/
theorem State.eventLaw_of_length_le_one (length : t.events.records.length ≤ 1) : t.EventLaw := by
  have older : t.events.records.dropLast = [] := by
    rw [← List.length_eq_zero_iff, List.length_dropLast]
    omega
  refine ⟨by omega, ?_, fun _ => by omega⟩
  rw [older]
  exact List.forall_mem_nil _

/-! ### Claims, owners and the end of a fade -/

theorem State.EventLaw.settleIdle (law : s.EventLaw) (z : Zone) : (s.settleIdle z).EventLaw := by
  rw [State.settleIdle_eq]
  exact law.of_events rfl

theorem State.EventLaw.startCheckZone (law : s.EventLaw) (z : Zone) : (s.startCheckZone z).EventLaw := by
  obtain ⟨slots, eq, -⟩ := s.startCheckZone_frame z
  rw [eq]
  exact law.of_events rfl

theorem State.EventLaw.withdrawClaims (law : s.EventLaw) (h : Handle) : (s.withdrawClaims h).EventLaw := by
  obtain ⟨zones, stages, eq, -⟩ := s.withdrawClaims_eq h
  rw [eq]
  exact law.of_events rfl

theorem State.EventLaw.enterStopping (law : s.EventLaw) (i : SlotId) (why : Stopping) :
    (s.enterStopping i why).EventLaw := by
  unfold State.enterStopping
  simp only
  split <;> exact law.of_events rfl

theorem State.EventLaw.giveUp (law : s.EventLaw) (i : SlotId) : (s.giveUp i).EventLaw := by
  obtain ⟨zones, stages, slots, eq, -⟩ := s.releaseZones_eq (s.handleAt i)
  unfold State.giveUp State.unbindOf
  rw [eq]
  split <;> exact law.of_events rfl

/-- A freed slot offers its FINISHED record (R28, R29). -/
theorem State.EventLaw.freeSlot (law : s.EventLaw) (i : SlotId) (o : AnnOutcome) : (s.freeSlot i o).EventLaw :=
  law.of_offer rfl

/-- A requeued announcement offers its PREEMPTED record (R49). -/
theorem State.EventLaw.requeue (law : s.EventLaw) (i : SlotId) (a : RequeueAction) (by_ : Byte) :
    (s.requeue i a by_).EventLaw := law.of_offer rfl

theorem State.EventLaw.requestPass (law : s.EventLaw) : s.requestPass.EventLaw := law.of_events rfl

theorem State.EventLaw.endFade (law : s.EventLaw) (i : SlotId) : (s.endFade i).EventLaw := by
  refine State.EventLaw.requestPass ?_
  rcases (s.giveUp i).dispose_cases i with ⟨o, eq⟩ | ⟨a, by_, eq⟩ <;> rw [eq]
  · exact (law.giveUp i).freeSlot i o
  · exact (law.giveUp i).requeue i a by_

/-! ### ZONE_SET -/

theorem State.EventLaw.setIdleHold (law : s.EventLaw) (z : Zone) (n : Nat) : (s.setIdleHold z n).EventLaw := by
  have stored : (s.setStage z { s.stages[z] with idleHold := n }).EventLaw := law.of_events rfl
  unfold State.setIdleHold
  split
  · exact law
  · exact stored.settleIdle z

/-- A disable that takes an announcement's last zone reports its end (R53). -/
theorem State.EventLaw.ownerLosesZone (law : s.EventLaw) (i : SlotId) (z : Zone) : (s.ownerLosesZone i z).EventLaw := by
  have taken : (s.zoneTaken i z).EventLaw := law.of_events rfl
  simp only [State.ownerLosesZone]
  rw [← State.zoneTaken]
  generalize s.zoneTaken i z = t at taken
  split
  · exact taken
  · split
    · split
      · exact (taken.giveUp i).freeSlot i _
      · exact (taken.giveUp i).requeue i _ _
      · exact (taken.giveUp i).requeue i _ _
    · exact taken.endFade i
    all_goals exact taken

theorem State.EventLaw.claimantOut (law : s.EventLaw) (z : Zone) : (s.claimantOut z).EventLaw := by
  unfold State.claimantOut
  split
  · exact (law.withdrawClaims _).of_events rfl
  · exact law

theorem State.EventLaw.ownerOut (law : s.EventLaw) (z : Zone) : (s.ownerOut z).EventLaw := by
  unfold State.ownerOut
  split
  · exact law.ownerLosesZone _ z
  · exact law

theorem State.EventLaw.disableZone (law : s.EventLaw) (z : Zone) : (s.disableZone z).EventLaw := by
  have recorded : (s.setStage z { s.stages[z] with enabled := false }).EventLaw := law.of_events rfl
  exact ((recorded.claimantOut z).ownerOut z).of_events rfl

theorem State.EventLaw.setEnable (law : s.EventLaw) (z : Zone) (enable : Bool) : (s.setEnable z enable).EventLaw := by
  unfold State.setEnable
  split
  · exact law
  · split
    · exact law.of_events rfl
    · exact law.disableZone z

/-! ### The commands -/

/-- Whatever the parameters, the body of a command keeps the law of the event queue. -/
def Body.KeepsEvents (body : Body) : Prop := ∀ (p : Params) (s : State), s.EventLaw → (body p s).1.EventLaw

theorem annOpenBody_keepsEvents : annOpenBody.KeepsEvents := by
  intro p s law
  unfold annOpenBody
  repeat' split
  all_goals exact law.of_events rfl

theorem annAppendBody_keepsEvents : annAppendBody.KeepsEvents := by
  intro p s law
  unfold annAppendBody
  simp only
  repeat' split
  all_goals exact law.of_events rfl

theorem annSubmitBody_keepsEvents : annSubmitBody.KeepsEvents := by
  intro p s law
  unfold annSubmitBody
  simp only
  repeat' split
  all_goals exact law.of_events rfl

/-- A cancelled announcement is freed at once, with its FINISHED record, or by the end of its fade (R24 to R26). -/
theorem annCancelBody_keepsEvents : annCancelBody.KeepsEvents := by
  intro p s law
  unfold annCancelBody
  split
  · exact law
  · next i _ =>
    split
    · exact law
    · exact law.freeSlot i _
    · exact (law.freeSlot i _).requestPass
    · exact ((law.withdrawClaims _).freeSlot i _).requestPass
    · exact (law.enterStopping i _).requestPass
    · unfold cancelStopping
      split <;> exact law.of_events rfl

theorem annStatusBody_keepsEvents : annStatusBody.KeepsEvents := by
  intro p s law
  unfold annStatusBody
  split <;> exact law

theorem zoneSetBody_keepsEvents : zoneSetBody.KeepsEvents := by
  intro p s law
  have volume (z : Zone) (n : Nat) : (s.setVolume z n).EventLaw := law.of_events rfl
  unfold zoneSetBody
  split
  · split
    · exact law
    · exact ((volume _ _).setIdleHold _ _).setEnable _ _
  · exact law

theorem dirLoadBody_keepsEvents : dirLoadBody.KeepsEvents := by
  intro p s law
  unfold dirLoadBody
  repeat' split
  all_goals exact law.of_events rfl

theorem flashConfigBody_keepsEvents : flashConfigBody.KeepsEvents := by
  intro p s law
  unfold flashConfigBody
  repeat' split
  all_goals exact law.of_events rfl

theorem flashClaimBody_keepsEvents : flashClaimBody.KeepsEvents := by
  intro p s law
  unfold flashClaimBody
  repeat' split
  all_goals exact law.of_events rfl

theorem flashReleaseBody_keepsEvents : flashReleaseBody.KeepsEvents := by
  intro p s law
  unfold flashReleaseBody
  repeat' split
  all_goals exact law.of_events rfl

/-- A soft reset leaves RESET_DONE alone in the queue (R169). -/
theorem softResetBody_keepsEvents : softResetBody.KeepsEvents := fun _ _ _ =>
  State.eventLaw_of_length_le_one le_rfl

theorem badCommandBody_keepsEvents : badCommandBody.KeepsEvents := fun _ _ law => law

/-! ### The mailbox and the host's bytes -/

theorem State.EventLaw.cmdWrite {body : Body} (keeps : body.KeepsEvents) (law : s.EventLaw) (code : Byte) :
    (s.cmdWrite code body).EventLaw := by
  have acted := keeps (s.latchCommand code).mailbox.latched (s.latchCommand code) (law.of_events rfl)
  unfold State.cmdWrite
  split
  · exact law.of_events rfl
  · simp only
    split
    · exact acted.of_events rfl
    · exact acted

/-- A data byte of the host keeps the law where its register's owning block does (R172). -/
theorem State.EventLaw.hostWrite (law : s.EventLaw) {a : RegAddr} {act : State → State} (h : (act s).EventLaw) :
    (s.hostWrite a act).EventLaw := by
  rcases s.hostWrite_cases a act with eq | ⟨-, eq⟩ | ⟨-, -, eq⟩ <;> rw [eq]
  · exact law
  · exact h.of_events rfl
  · exact law.of_events rfl

theorem State.EventLaw.hostCommand {body : Body} (keeps : body.KeepsEvents) (law : s.EventLaw) (code : Byte) :
    (s.hostCommand code body).EventLaw := law.hostWrite (law.cmdWrite keeps code)

theorem commandTable_keepsEvents : ∀ row ∈ commandTable, row.2.KeepsEvents := by
  simp only [commandTable, List.forall_mem_cons]
  exact ⟨annOpenBody_keepsEvents, annAppendBody_keepsEvents, annSubmitBody_keepsEvents, annCancelBody_keepsEvents,
    annStatusBody_keepsEvents, zoneSetBody_keepsEvents, dirLoadBody_keepsEvents, flashConfigBody_keepsEvents,
    flashClaimBody_keepsEvents, flashReleaseBody_keepsEvents, softResetBody_keepsEvents, nofun⟩

theorem bodyOfCode_keepsEvents (code : Byte) : (bodyOfCode code).KeepsEvents := by
  unfold bodyOfCode
  cases found : commandTable.lookup code with
  | none => exact badCommandBody_keepsEvents
  | some body =>
    obtain ⟨before, after, eq, -⟩ := List.lookup_eq_some_iff.mp found
    exact commandTable_keepsEvents (code, body) (by simp [eq])

theorem State.EventLaw.writeRegister (law : s.EventLaw) (a : RegAddr) (v : Byte) : (s.writeRegister a v).EventLaw := by
  unfold State.writeRegister
  split
  · exact law.of_events rfl
  · repeat' split
    · exact law.cmdWrite (bodyOfCode_keepsEvents v) v
    · exact law.of_records rfl
    · exact law.writeMask .evmsk0 v
    · exact law.writeMask .evmsk1 v
    · exact law.pop
    all_goals exact law.of_events rfl

theorem State.EventLaw.fallHcs (law : s.EventLaw) : s.fallHcs.EventLaw := by
  unfold State.fallHcs
  repeat' split
  all_goals exact law.of_events rfl

theorem State.EventLaw.takeAddress (law : s.EventLaw) (b : Byte) : (s.takeAddress b).EventLaw := by
  unfold State.takeAddress
  repeat' split
  all_goals exact law.of_events rfl

/-! ### The scheduler's own events -/

/-- The pass leaves the queue to its end, where the stages' records are offered (R35, R164). -/
theorem State.EventLaw.takePass (law : s.EventLaw) : s.takePass.EventLaw := by
  have visited : (s.candidates.foldl Pass.visit s.passBegun).state.EventLaw := by
    rw [s.candidates_passedOver.frame]
    exact law.of_events rfl
  unfold State.takePass
  split
  · refine State.EventLaw.offerFrom ?_ _
    rw [← State.passBegun]
    obtain ⟨slots, checked, -⟩ :=
      State.startChecks_eq allSlots (s.candidates.foldl Pass.visit s.passBegun).state
    rw [checked]
    exact visited.of_events rfl
  · exact law

/-- A start offers its STARTED record (R42). -/
theorem State.EventLaw.takeStart (law : s.EventLaw) (i : SlotId) : (s.takeStart i).EventLaw := by
  have dropped (x : Slot) : (s.setSlot i x).EventLaw := law.of_events rfl
  unfold State.takeStart
  simp only
  repeat' split
  · next e _ =>
    obtain ⟨zones, stages, eq, -⟩ := s.startOn_eq i e
    rw [eq]
    exact law.of_offer rfl
  · exact dropped _
  · exact dropped _
  · exact law

theorem State.EventLaw.takeExpiry (law : s.EventLaw) (i : SlotId) : (s.takeExpiry i).EventLaw := by
  unfold State.takeExpiry
  split
  · exact ((law.withdrawClaims (s.handleAt i)).freeSlot i _).requestPass
  · exact law

theorem State.EventLaw.takeFadeEnd (law : s.EventLaw) (e : EngineId) : (s.takeFadeEnd e).EventLaw := by
  unfold State.takeFadeEnd
  repeat' split
  · exact law
  · exact law.endFade _
  · exact law.of_events rfl

theorem State.EventLaw.takeCompletion (law : s.EventLaw) (e : EngineId) : (s.takeCompletion e).EventLaw := by
  unfold State.takeCompletion
  repeat' split
  · exact law
  · exact ((law.giveUp _).freeSlot _ _).requestPass
  · exact law.of_events rfl

/-! ### Zone stages, ticks and engines -/

theorem State.EventLaw.takeIdleExpiry (law : s.EventLaw) (z : Zone) : (s.takeIdleExpiry z).EventLaw := by
  unfold State.takeIdleExpiry
  split <;> exact law.of_events rfl

theorem State.EventLaw.takeZoneFadeEnd (law : s.EventLaw) (z : Zone) : (s.takeZoneFadeEnd z).EventLaw := by
  unfold State.takeZoneFadeEnd
  split
  · exact law
  · split
    · exact law
    · have ended : (s.setStage z { s.stages[z] with fade := none }).EventLaw := law.of_events rfl
      simp only
      split
      · exact ended.startCheckZone z
      · unfold State.afterZoneFade
        split
        · exact ended.settleIdle z
        · exact ended.of_events rfl
        · exact ended.of_events rfl

/-- A ramp up that ends offers ZONE (READY) (R123, R137). -/
theorem State.EventLaw.takeBiasReady (law : s.EventLaw) (z : Zone) : (s.takeBiasReady z).EventLaw := by
  have ready : ((s.setStage z { s.stages[z] with bias := .ready }).offer (EventRecord.zone z .ready)).EventLaw :=
    law.of_offer rfl
  unfold State.takeBiasReady
  simp only
  repeat' split
  · exact ready.startCheckZone z
  · exact ready.settleIdle z
  · exact law

/-- A ramp down that ends offers ZONE (OFF) (R123, R137). -/
theorem State.EventLaw.takeBiasOff (law : s.EventLaw) (z : Zone) : (s.takeBiasOff z).EventLaw := by
  unfold State.takeBiasOff
  split
  · exact law.of_offer rfl
  · exact law

/-- A frame offers the records of the four engines (R1, R164). -/
theorem State.EventLaw.takeFrame (law : s.EventLaw) : s.takeFrame.EventLaw := by
  unfold State.takeFrame
  refine State.EventLaw.offerFrom ?_ _
  exact law.of_events rfl

theorem State.EventLaw.takeTick (law : s.EventLaw) : s.takeTick.EventLaw := by
  unfold State.takeTick
  split <;> exact law.of_events rfl

theorem State.EventLaw.takeSlew (law : s.EventLaw) : s.takeSlew.EventLaw := by
  unfold State.takeSlew
  split <;> exact law.of_events rfl

theorem State.EventLaw.takeGapEnd (law : s.EventLaw) (e : EngineId) : (s.takeGapEnd e).EventLaw := by
  unfold State.takeGapEnd
  split <;> exact law.of_events rfl

theorem State.EventLaw.takeRepeatGapEnd (law : s.EventLaw) (e : EngineId) : (s.takeRepeatGapEnd e).EventLaw := by
  unfold State.takeRepeatGapEnd
  split <;> exact law.of_events rfl

theorem State.EventLaw.takeEngineArrival (law : s.EventLaw) (data : List Byte) :
    (s.takeEngineArrival data).EventLaw := by
  unfold State.takeEngineArrival State.takeEngineData
  repeat' split
  all_goals exact law.of_events rfl

/-! ### Directory and port -/

/-- A load that fails offers its DIRECTORY record (R109, R112, R114). -/
theorem State.EventLaw.failLoad (law : s.EventLaw) (why : LoadResult) (count invalid : Nat) :
    (s.failLoad why count invalid).EventLaw := law.of_offer rfl

theorem State.EventLaw.takeDirHeader (law : s.EventLaw) (data : List Byte) : (s.takeDirHeader data).EventLaw := by
  unfold State.takeDirHeader
  simp only
  repeat' split
  · exact law.failLoad _ _ _
  · exact law.failLoad _ _ _
  · exact law.failLoad _ _ _
  · exact law.of_events rfl

/-- A load that ends offers its DIRECTORY record, of either result (R112, R114). -/
theorem State.EventLaw.endLoad (law : s.EventLaw) (d : Directory) (count : Nat) (matched : Bool) :
    (s.endLoad d count matched).EventLaw := by
  unfold State.endLoad
  split <;> exact law.of_offer rfl

theorem State.EventLaw.takeDirEntries (law : s.EventLaw) (p : LoadProgress) (data : List Byte) :
    (s.takeDirEntries p data).EventLaw := by
  unfold State.takeDirEntries
  simp only
  split
  · exact law.of_events rfl
  · exact law.endLoad _ _ _

theorem State.EventLaw.takeLoaderData (law : s.EventLaw) (number : BitVec 8) (data : List Byte) :
    (s.takeLoaderData number data).EventLaw := by
  unfold State.takeLoaderData
  repeat' split
  · exact law
  · exact law.takeDirHeader data
  · exact law.takeDirEntries _ data
  · exact law

theorem State.EventLaw.takeLoaderArrival (law : s.EventLaw) (data : List Byte) :
    (s.takeLoaderArrival data).EventLaw := by
  have arrived : (s.setPort s.port.arrived).EventLaw := law.of_events rfl
  unfold State.takeLoaderArrival
  repeat' split
  · exact arrived.takeLoaderData _ _
  all_goals exact law

/-- A grant of the host's claim offers CLAIM (HELD); any other grant offers nothing (R145, R149). -/
theorem State.EventLaw.arbitrate (law : s.EventLaw) : s.arbitrate.EventLaw := by
  unfold State.arbitrate
  split
  · rw [State.grantClaim_eq]
    exact law.of_offer rfl
  · unfold State.grantEngine State.grantLoader
    repeat' split
    all_goals exact law.of_events rfl

theorem State.EventLaw.takeGrant (law : s.EventLaw) : s.takeGrant.EventLaw := by
  rcases s.takeGrant_cases with ⟨-, eq⟩ | ⟨-, -, -, eq⟩ | ⟨-, eq⟩ <;> rw [eq]
  · exact law.arbitrate
  · have ended : (s.setPort s.port.endBeforeArrival).EventLaw := law.of_events rfl
    exact ended.arbitrate
  · exact law

/-- A revocation offers CLAIM (REVOKED) (R153). -/
theorem State.EventLaw.revoke (law : s.EventLaw) : s.revoke.EventLaw := law.of_offer rfl

theorem State.EventLaw.takeHoldExpiry (law : s.EventLaw) : s.takeHoldExpiry.EventLaw := by
  unfold State.takeHoldExpiry
  repeat' split
  · exact law.revoke
  · exact law.of_events rfl
  · exact law

theorem State.EventLaw.completeEnd (law : s.EventLaw) : s.completeEnd.EventLaw := by
  unfold State.completeEnd
  split
  · exact law.revoke
  all_goals exact law.of_events rfl

theorem State.EventLaw.endWaitingRelease (law : s.EventLaw) : s.endWaitingRelease.EventLaw := by
  unfold State.endWaitingRelease
  split <;> exact law.of_events rfl

theorem State.EventLaw.takeByteEnd (law : s.EventLaw) (received : Byte) : (s.takeByteEnd received).EventLaw := by
  have stored : (s.setPort { s.port with ptByte := none, received := received }).EventLaw := law.of_events rfl
  unfold State.takeByteEnd
  split
  · exact law
  · exact stored.completeEnd.endWaitingRelease

/-! ### Every step -/

theorem State.EventLaw.whenRunning (law : s.EventLaw) {act : State → State} (h : (act s).EventLaw) :
    (s.whenRunning act).EventLaw := by
  unfold State.whenRunning
  split
  · exact law
  · exact h

end State

/-- Every command keeps the law of the event queue. -/
theorem exec_eventLaw (c : Instr) {s : State} (law : s.EventLaw) : ∃ t, exec c s = .next t ∧ t.EventLaw := by
  cases c with
  | annOpen => exact ⟨_, rfl, law.hostCommand annOpenBody_keepsEvents _⟩
  | annAppend => exact ⟨_, rfl, law.hostCommand annAppendBody_keepsEvents _⟩
  | annSubmit => exact ⟨_, rfl, law.hostCommand annSubmitBody_keepsEvents _⟩
  | annCancel => exact ⟨_, rfl, law.hostCommand annCancelBody_keepsEvents _⟩
  | annStatus => exact ⟨_, rfl, law.hostCommand annStatusBody_keepsEvents _⟩
  | zoneSet => exact ⟨_, rfl, law.hostCommand zoneSetBody_keepsEvents _⟩
  | dirLoad => exact ⟨_, rfl, law.hostCommand dirLoadBody_keepsEvents _⟩
  | flashConfig => exact ⟨_, rfl, law.hostCommand flashConfigBody_keepsEvents _⟩
  | flashClaim => exact ⟨_, rfl, law.hostCommand flashClaimBody_keepsEvents _⟩
  | flashRelease => exact ⟨_, rfl, law.hostCommand flashReleaseBody_keepsEvents _⟩
  | softReset => exact ⟨_, rfl, law.hostCommand softResetBody_keepsEvents _⟩
  | badCommand code =>
    refine ⟨_, rfl, ?_⟩
    split
    · exact law
    · exact law.hostCommand badCommandBody_keepsEvents _
  | cmdWriteDiscarded code =>
    refine ⟨_, rfl, ?_⟩
    split
    · exact law.hostWrite (law.of_events rfl)
    · exact law
  | registerWrite a v => exact ⟨_, rfl, law.hostWrite (law.writeRegister a v)⟩
  | evpop v => exact ⟨_, rfl, law.hostWrite law.pop⟩
  | evmskWrite reg v => exact ⟨_, rfl, law.hostWrite (law.writeMask reg v)⟩
  | irqcWrite v => exact ⟨_, rfl, law.hostWrite (law.of_records rfl)⟩
  | ptctlWrite v => exact ⟨_, rfl, law.hostWrite (law.of_events rfl)⟩
  | ptdatWrite v => exact ⟨_, rfl, law.hostWrite (law.of_events rfl)⟩
  | ptByteEnd received => exact ⟨_, rfl, law.whenRunning (law.takeByteEnd received)⟩
  | powerOnReset => exact ⟨_, rfl, State.eventLaw_of_length_le_one le_rfl⟩
  | pinReset => exact ⟨_, rfl, State.eventLaw_of_length_le_one le_rfl⟩
  | frame => exact ⟨_, rfl, law.whenRunning law.takeFrame⟩
  | tick => exact ⟨_, rfl, law.whenRunning law.takeTick⟩
  | volumeSlewStep => exact ⟨_, rfl, law.whenRunning law.takeSlew⟩
  | deadlineExpiry i => exact ⟨_, rfl, law.whenRunning (law.takeExpiry i)⟩
  | idleTimerExpiry z => exact ⟨_, rfl, law.whenRunning (law.takeIdleExpiry z)⟩
  | holdExpiry => exact ⟨_, rfl, law.whenRunning law.takeHoldExpiry⟩
  | schedulingPass => exact ⟨_, rfl, law.whenRunning law.takePass⟩
  | start i => exact ⟨_, rfl, law.whenRunning (law.takeStart i)⟩
  | engineFadeDone e => exact ⟨_, rfl, law.whenRunning (law.of_events rfl)⟩
  | fadeEnd e => exact ⟨_, rfl, law.whenRunning (law.takeFadeEnd e)⟩
  | completion e => exact ⟨_, rfl, law.whenRunning (law.takeCompletion e)⟩
  | zoneFadeEnd z => exact ⟨_, rfl, law.whenRunning (law.takeZoneFadeEnd z)⟩
  | biasReady z => exact ⟨_, rfl, law.whenRunning (law.takeBiasReady z)⟩
  | biasOff z => exact ⟨_, rfl, law.whenRunning (law.takeBiasOff z)⟩
  | gapEnd e => exact ⟨_, rfl, law.whenRunning (law.takeGapEnd e)⟩
  | repeatGapEnd e => exact ⟨_, rfl, law.whenRunning (law.takeRepeatGapEnd e)⟩
  | portGrant => exact ⟨_, rfl, law.whenRunning law.takeGrant⟩
  | engineBurstArrival data => exact ⟨_, rfl, law.whenRunning (law.takeEngineArrival data)⟩
  | loaderBurstArrival data => exact ⟨_, rfl, law.whenRunning (law.takeLoaderArrival data)⟩
  | resetnHeldLow => exact ⟨_, rfl, State.eventLaw_of_length_le_one (Nat.zero_le 1)⟩
  | hcsFall => exact ⟨_, rfl, law.fallHcs⟩
  | addressByte b => exact ⟨_, rfl, law.whenRunning (law.takeAddress b)⟩
  | hcsRise => exact ⟨_, rfl, law.of_events rfl⟩

/-- Settles O52: a step offers records, pops one, or leaves the queue empty or with RESET_DONE alone, and each of these
keeps the law. -/
theorem everyStepKeepsEventLaw : Obligations.EveryStepKeepsEventLaw := by
  intro s t law h
  unfold step at h
  split at h
  · obtain rfl := Host.Outcome.next.inj h
    exact law
  · next c rest _ =>
    obtain ⟨u, eq, law'⟩ := exec_eventLaw c (s := s.withPending rest) (law.of_events rfl)
    obtain rfl := Host.Outcome.next.inj (eq.symm.trans h)
    exact law'

end Sys2Proof.Machine

/-! ## What leaves the waiting commands and the host port alone -/

namespace Sys2Proof.Machine

/-- What only the sender and the host's pins move: the commands that wait, and the host port. -/
def State.front (s : State) : List Instr × HostPort := (s.pending, s.host)

/-- What leaves both leaves each. -/
theorem State.front_eq_iff {s t : State} : t.front = s.front ↔ t.pending = s.pending ∧ t.host = s.host := Prod.mk_inj

section front
variable (s : State)

/-! ### Claims, owners and the end of a fade -/

@[simp] theorem State.settleIdle_front (z : Zone) : (s.settleIdle z).front = s.front := by
  rw [State.settleIdle_eq]; rfl

@[simp] theorem State.withdrawClaims_front (h : Handle) : (s.withdrawClaims h).front = s.front := by
  obtain ⟨zones, stages, eq, -⟩ := s.withdrawClaims_eq h
  rw [eq]; rfl

@[simp] theorem State.startCheckZone_front (z : Zone) : (s.startCheckZone z).front = s.front := by
  obtain ⟨slots, eq, -⟩ := s.startCheckZone_frame z
  rw [eq]; rfl

@[simp] theorem State.giveUp_front (i : SlotId) : (s.giveUp i).front = s.front := by
  obtain ⟨zones, stages, slots, eq, -⟩ := s.releaseZones_eq (s.handleAt i)
  unfold State.giveUp State.unbindOf
  rw [eq]
  split <;> rfl

@[simp] theorem State.enterStopping_front (i : SlotId) (why : Stopping) : (s.enterStopping i why).front = s.front := by
  unfold State.enterStopping
  simp only
  split <;> rfl

@[simp] theorem State.freeSlot_front (i : SlotId) (o : AnnOutcome) : (s.freeSlot i o).front = s.front := rfl

@[simp] theorem State.requeue_front (i : SlotId) (a : RequeueAction) (by_ : Byte) :
    (s.requeue i a by_).front = s.front := rfl

@[simp] theorem State.requestPass_front : s.requestPass.front = s.front := rfl

@[simp] theorem State.dispose_front (i : SlotId) : (s.dispose i).front = s.front := by
  rcases s.dispose_cases i with ⟨o, eq⟩ | ⟨a, by_, eq⟩ <;> rw [eq] <;> rfl

@[simp] theorem State.endFade_front (i : SlotId) : (s.endFade i).front = s.front := by
  rw [State.endFade, State.requestPass_front, State.dispose_front, State.giveUp_front]

/-! ### ZONE_SET -/

theorem State.setIdleHold_front (z : Zone) (hold : Nat) : (s.setIdleHold z hold).front = s.front := by
  unfold State.setIdleHold
  split
  · rfl
  · exact State.settleIdle_front _ z

/-- An announcement that loses its last zone ends as at the end of a fade (R53). -/
theorem State.ownerLosesZone_front (i : SlotId) (z : Zone) : (s.ownerLosesZone i z).front = s.front := by
  have taken : (s.zoneTaken i z).front = s.front := rfl
  simp only [State.ownerLosesZone]
  rw [← State.zoneTaken, ← taken]
  repeat' split
  all_goals simp only [State.freeSlot_front, State.requeue_front, State.giveUp_front, State.endFade_front]

theorem State.claimantOut_front (z : Zone) : (s.claimantOut z).front = s.front := by
  unfold State.claimantOut
  split
  · exact s.withdrawClaims_front _
  · rfl

theorem State.ownerOut_front (z : Zone) : (s.ownerOut z).front = s.front := by
  unfold State.ownerOut
  split
  · exact s.ownerLosesZone_front _ z
  · rfl

theorem State.disableZone_front (z : Zone) : (s.disableZone z).front = s.front :=
  (State.ownerOut_front _ z).trans (State.claimantOut_front _ z)

theorem State.setEnable_front (z : Zone) (enable : Bool) : (s.setEnable z enable).front = s.front := by
  unfold State.setEnable
  repeat' split
  · rfl
  · rfl
  · exact s.disableZone_front z

/-! ### The scheduler's own events -/

/-- A pass is the scheduler's and the stages' work (R35). -/
theorem State.takePass_front : s.takePass.front = s.front := by
  unfold State.takePass
  split
  · rw [← State.passBegun]
    obtain ⟨slots, checked, -⟩ :=
      State.startChecks_eq allSlots (s.candidates.foldl Pass.visit s.passBegun).state
    simp only [checked]
    rw [s.candidates_passedOver.frame]
    rfl
  · rfl

theorem State.takeStart_front (i : SlotId) : (s.takeStart i).front = s.front := by
  unfold State.takeStart
  simp only
  repeat' split
  · next e _ =>
    obtain ⟨zones, stages, eq, -⟩ := s.startOn_eq i e
    rw [eq]; rfl
  all_goals rfl

theorem State.takeExpiry_front (i : SlotId) : (s.takeExpiry i).front = s.front := by
  unfold State.takeExpiry
  split
  · rw [State.requestPass_front, State.freeSlot_front, State.withdrawClaims_front]
  · rfl

theorem State.takeFadeEnd_front (e : EngineId) : (s.takeFadeEnd e).front = s.front := by
  unfold State.takeFadeEnd
  repeat' split
  · rfl
  · exact s.endFade_front _
  · rfl

theorem State.takeCompletion_front (e : EngineId) : (s.takeCompletion e).front = s.front := by
  unfold State.takeCompletion
  repeat' split
  · rfl
  · rw [State.requestPass_front, State.freeSlot_front, State.giveUp_front]
  · rfl

/-! ### Zone stages, ticks and engines -/

theorem State.takeIdleExpiry_front (z : Zone) : (s.takeIdleExpiry z).front = s.front := by
  unfold State.takeIdleExpiry
  split <;> rfl

theorem State.afterZoneFade_front (z : Zone) (cause : FadeCause) : (s.afterZoneFade z cause).front = s.front := by
  unfold State.afterZoneFade
  split
  · exact s.settleIdle_front z
  · rfl
  · rfl

theorem State.takeZoneFadeEnd_front (z : Zone) : (s.takeZoneFadeEnd z).front = s.front := by
  unfold State.takeZoneFadeEnd
  simp only
  repeat' split
  · rfl
  · rfl
  · exact State.startCheckZone_front _ z
  · exact State.afterZoneFade_front _ z _

theorem State.takeBiasReady_front (z : Zone) : (s.takeBiasReady z).front = s.front := by
  unfold State.takeBiasReady
  simp only
  repeat' split
  · exact State.startCheckZone_front _ z
  · exact State.settleIdle_front _ z
  · rfl

theorem State.takeBiasOff_front (z : Zone) : (s.takeBiasOff z).front = s.front := by
  unfold State.takeBiasOff
  split <;> rfl

theorem State.takeTick_front : s.takeTick.front = s.front := by
  unfold State.takeTick
  split <;> rfl

theorem State.takeSlew_front : s.takeSlew.front = s.front := by
  unfold State.takeSlew
  split <;> rfl

theorem State.takeFrame_front : s.takeFrame.front = s.front := by
  rw [State.takeFrame_eq]; rfl

theorem State.takeGapEnd_front (e : EngineId) : (s.takeGapEnd e).front = s.front := by
  unfold State.takeGapEnd
  split <;> rfl

theorem State.takeRepeatGapEnd_front (e : EngineId) : (s.takeRepeatGapEnd e).front = s.front := by
  unfold State.takeRepeatGapEnd
  split <;> rfl

theorem State.takeEngineArrival_front (data : List Byte) : (s.takeEngineArrival data).front = s.front := by
  unfold State.takeEngineArrival State.takeEngineData
  repeat' split
  all_goals rfl

/-! ### Directory and port -/

theorem State.takeLoaderData_front (number : BitVec 8) (data : List Byte) :
    (s.takeLoaderData number data).front = s.front := by
  unfold State.takeLoaderData State.takeDirHeader State.takeDirEntries State.endLoad
  simp only
  repeat' split
  all_goals rfl

theorem State.takeLoaderArrival_front (data : List Byte) : (s.takeLoaderArrival data).front = s.front := by
  unfold State.takeLoaderArrival
  repeat' split
  · exact State.takeLoaderData_front _ _ _
  all_goals rfl

theorem State.arbitrate_front : s.arbitrate.front = s.front := by
  unfold State.arbitrate
  split
  · rw [State.grantClaim_eq]; rfl
  · unfold State.grantEngine State.grantLoader
    repeat' split
    all_goals rfl

theorem State.takeGrant_front : s.takeGrant.front = s.front := by
  rcases s.takeGrant_cases with ⟨-, eq⟩ | ⟨-, -, -, eq⟩ | ⟨-, eq⟩ <;> rw [eq]
  · exact s.arbitrate_front
  · exact State.arbitrate_front _

theorem State.takeHoldExpiry_front : s.takeHoldExpiry.front = s.front := by
  unfold State.takeHoldExpiry
  repeat' split
  all_goals rfl

theorem State.completeEnd_front : s.completeEnd.front = s.front := by
  unfold State.completeEnd
  split <;> rfl

theorem State.takeByteEnd_front (received : Byte) : (s.takeByteEnd received).front = s.front := by
  unfold State.takeByteEnd
  split
  · rfl
  · rw [State.endWaitingRelease_eq]
    exact State.completeEnd_front _

end front

/-! ### The commands -/

/-- Whatever the parameters, the body of a command leaves the waiting commands and the host port. -/
def Body.LeavesFront (body : Body) : Prop := ∀ (p : Params) (s : State), (body p s).1.front = s.front

theorem annOpenBody_leavesFront : annOpenBody.LeavesFront := by
  intro p s
  unfold annOpenBody
  repeat' split
  all_goals rfl

theorem annAppendBody_leavesFront : annAppendBody.LeavesFront := by
  intro p s
  unfold annAppendBody
  simp only
  repeat' split
  all_goals rfl

theorem annSubmitBody_leavesFront : annSubmitBody.LeavesFront := by
  intro p s
  unfold annSubmitBody
  simp only
  repeat' split
  all_goals rfl

/-- A cancelled announcement is freed, or its fade begins, or it is STOPPING already (R24 to R26). -/
theorem annCancelBody_leavesFront : annCancelBody.LeavesFront := by
  intro p s
  unfold annCancelBody
  split
  · rfl
  · next i _ =>
    split
    · rfl
    · exact s.freeSlot_front i _
    · rw [State.requestPass_front, State.freeSlot_front]
    · rw [State.requestPass_front, State.freeSlot_front, State.withdrawClaims_front]
    · rw [State.requestPass_front, State.enterStopping_front]
    · unfold cancelStopping
      split <;> rfl

theorem annStatusBody_leavesFront : annStatusBody.LeavesFront := by
  intro p s
  unfold annStatusBody
  split <;> rfl

theorem zoneSetBody_leavesFront : zoneSetBody.LeavesFront := by
  intro p s
  unfold zoneSetBody
  repeat' split
  · rfl
  · exact (State.setEnable_front _ _ _).trans (State.setIdleHold_front _ _ _)
  · rfl

theorem dirLoadBody_leavesFront : dirLoadBody.LeavesFront := by
  intro p s
  unfold dirLoadBody
  repeat' split
  all_goals rfl

theorem flashConfigBody_leavesFront : flashConfigBody.LeavesFront := by
  intro p s
  unfold flashConfigBody
  repeat' split
  all_goals rfl

theorem flashClaimBody_leavesFront : flashClaimBody.LeavesFront := by
  intro p s
  unfold flashClaimBody
  repeat' split
  all_goals rfl

theorem flashReleaseBody_leavesFront : flashReleaseBody.LeavesFront := by
  intro p s
  unfold flashReleaseBody
  repeat' split
  all_goals rfl

theorem softResetBody_leavesFront : softResetBody.LeavesFront := by
  intro p s
  obtain ⟨slots, poolFree, order, eq⟩ := s.softReset_eq
  rw [softResetBody, eq]
  rfl

theorem badCommandBody_leavesFront : badCommandBody.LeavesFront := fun _ _ => rfl

/-- A code's body is one of the table's, or that of R179 (9.4). -/
theorem bodyOfCode_leavesFront (code : Byte) : (bodyOfCode code).LeavesFront := by
  have table : ∀ row ∈ commandTable, row.2.LeavesFront := by
    simp only [commandTable, List.forall_mem_cons]
    exact ⟨annOpenBody_leavesFront, annAppendBody_leavesFront, annSubmitBody_leavesFront, annCancelBody_leavesFront,
      annStatusBody_leavesFront, zoneSetBody_leavesFront, dirLoadBody_leavesFront, flashConfigBody_leavesFront,
      flashClaimBody_leavesFront, flashReleaseBody_leavesFront, softResetBody_leavesFront, nofun⟩
  unfold bodyOfCode
  cases found : commandTable.lookup code with
  | none => exact badCommandBody_leavesFront
  | some body =>
    obtain ⟨before, after, eq, -⟩ := List.lookup_eq_some_iff.mp found
    exact table (code, body) (by simp [eq])

/-! ### The mailbox and the registers -/

section bytes
variable {s : State}

/-- The mailbox's latch and end change the mailbox alone (R176). -/
theorem State.cmdWrite_front {body : Body} (leaves : body.LeavesFront) (code : Byte) :
    (s.cmdWrite code body).front = s.front := by
  have acted := leaves (s.latchCommand code).mailbox.latched (s.latchCommand code)
  unfold State.cmdWrite
  simp only
  repeat' split
  · rfl
  · exact acted
  · exact acted

/-- A data byte reaches a parameter, a command, a register of the event queue or the port, or nothing (R172). -/
theorem State.writeRegister_front (a : RegAddr) (v : Byte) : (s.writeRegister a v).front = s.front := by
  unfold State.writeRegister
  repeat' split
  · rfl
  · exact State.cmdWrite_front (bodyOfCode_leavesFront v) v
  all_goals rfl

/-- A data byte leaves the commands that wait where its register's owning block does (R172). -/
theorem State.hostWrite_pending {a : RegAddr} {act : State → State} (acts : (act s).front = s.front) :
    (s.hostWrite a act).pending = s.pending := by
  rcases s.hostWrite_cases a act with eq | ⟨-, eq⟩ | ⟨-, -, eq⟩ <;> rw [eq]
  · exact (State.front_eq_iff.mp acts).1
  · rfl

theorem State.hostCommand_pending {body : Body} (leaves : body.LeavesFront) (code : Byte) :
    (s.hostCommand code body).pending = s.pending := State.hostWrite_pending (State.cmdWrite_front leaves code)

theorem State.whenRunning_pending {act : State → State} (acts : (act s).pending = s.pending) :
    (s.whenRunning act).pending = s.pending := by
  unfold State.whenRunning
  split
  · rfl
  · exact acts

theorem State.takeAddress_pending (b : Byte) : (s.takeAddress b).pending = s.pending := by
  unfold State.takeAddress
  repeat' split
  all_goals rfl

theorem State.fallHcs_pending : s.fallHcs.pending = s.pending := by
  unfold State.fallHcs
  repeat' split
  all_goals rfl

end bytes

end Sys2Proof.Machine

/-! ## Chapter 9 proofs: a step, the mailbox, the registers and the host's frames -/

namespace Sys2Proof.Machine

/-! ### A step -/

/-- Settles O1: the front command is taken off the queue, and without one the state stays. -/
theorem stepRunsFrontCommand : Obligations.StepRunsFrontCommand := ⟨fun _ _ _ => rfl, fun _ => rfl⟩

/-- Every command answers a next state; none touches the commands that wait behind it. -/
theorem exec_pending (c : Instr) (s : State) : ∃ t : State, exec c s = .next t ∧ t.pending = s.pending := by
  have command {body : Body} (leaves : body.LeavesFront) (code : Byte) :
      (s.hostCommand code body).pending = s.pending := State.hostCommand_pending leaves code
  have byte {a : RegAddr} {act : State → State} (acts : (act s).front = s.front) :
      (s.hostWrite a act).pending = s.pending := State.hostWrite_pending acts
  have event {act : State → State} (acts : (act s).front = s.front) : (s.whenRunning act).pending = s.pending :=
    State.whenRunning_pending (State.front_eq_iff.mp acts).1
  cases c with
  | annOpen => exact ⟨_, rfl, command annOpenBody_leavesFront _⟩
  | annAppend => exact ⟨_, rfl, command annAppendBody_leavesFront _⟩
  | annSubmit => exact ⟨_, rfl, command annSubmitBody_leavesFront _⟩
  | annCancel => exact ⟨_, rfl, command annCancelBody_leavesFront _⟩
  | annStatus => exact ⟨_, rfl, command annStatusBody_leavesFront _⟩
  | zoneSet => exact ⟨_, rfl, command zoneSetBody_leavesFront _⟩
  | dirLoad => exact ⟨_, rfl, command dirLoadBody_leavesFront _⟩
  | flashConfig => exact ⟨_, rfl, command flashConfigBody_leavesFront _⟩
  | flashClaim => exact ⟨_, rfl, command flashClaimBody_leavesFront _⟩
  | flashRelease => exact ⟨_, rfl, command flashReleaseBody_leavesFront _⟩
  | softReset => exact ⟨_, rfl, command softResetBody_leavesFront _⟩
  | badCommand code =>
    refine ⟨_, rfl, ?_⟩
    split
    · rfl
    · exact command badCommandBody_leavesFront code
  | cmdWriteDiscarded code =>
    refine ⟨_, rfl, ?_⟩
    split
    · exact byte rfl
    · rfl
  | registerWrite a v => exact ⟨_, rfl, byte (State.writeRegister_front a v)⟩
  | evpop | evmskWrite | irqcWrite | ptctlWrite | ptdatWrite => exact ⟨_, rfl, byte rfl⟩
  | ptByteEnd received => exact ⟨_, rfl, event (s.takeByteEnd_front received)⟩
  | powerOnReset | pinReset | resetnHeldLow | hcsRise => exact ⟨_, rfl, rfl⟩
  | frame => exact ⟨_, rfl, event s.takeFrame_front⟩
  | tick => exact ⟨_, rfl, event s.takeTick_front⟩
  | volumeSlewStep => exact ⟨_, rfl, event s.takeSlew_front⟩
  | deadlineExpiry i => exact ⟨_, rfl, event (s.takeExpiry_front i)⟩
  | idleTimerExpiry z => exact ⟨_, rfl, event (s.takeIdleExpiry_front z)⟩
  | holdExpiry => exact ⟨_, rfl, event s.takeHoldExpiry_front⟩
  | schedulingPass => exact ⟨_, rfl, event s.takePass_front⟩
  | start i => exact ⟨_, rfl, event (s.takeStart_front i)⟩
  | engineFadeDone e => exact ⟨_, rfl, event rfl⟩
  | fadeEnd e => exact ⟨_, rfl, event (s.takeFadeEnd_front e)⟩
  | completion e => exact ⟨_, rfl, event (s.takeCompletion_front e)⟩
  | zoneFadeEnd z => exact ⟨_, rfl, event (s.takeZoneFadeEnd_front z)⟩
  | biasReady z => exact ⟨_, rfl, event (s.takeBiasReady_front z)⟩
  | biasOff z => exact ⟨_, rfl, event (s.takeBiasOff_front z)⟩
  | gapEnd e => exact ⟨_, rfl, event (s.takeGapEnd_front e)⟩
  | repeatGapEnd e => exact ⟨_, rfl, event (s.takeRepeatGapEnd_front e)⟩
  | portGrant => exact ⟨_, rfl, event s.takeGrant_front⟩
  | engineBurstArrival data => exact ⟨_, rfl, event (s.takeEngineArrival_front data)⟩
  | loaderBurstArrival data => exact ⟨_, rfl, event (s.takeLoaderArrival_front data)⟩
  | hcsFall => exact ⟨_, rfl, State.fallHcs_pending⟩
  | addressByte b => exact ⟨_, rfl, State.whenRunning_pending (State.takeAddress_pending b)⟩

/-- Settles O2: no arm answers a fault or a refusal, and none writes the queue of commands. -/
theorem everyCommandAnswersNext : Obligations.EveryCommandAnswersNext := exec_pending

/-! ### The mailbox -/

/-- The codes of the table are those of 11.3. -/
theorem namesCommand_iff (code : Byte) : namesCommand code = true ↔ code ∈ commandCodes := by
  have codes : commandCodes = commandTable.map Prod.fst := rfl
  simp only [namesCommand, codes, List.any_eq_true, beq_iff_eq, List.mem_map]

/-- A write to CMD is the CMD write of the command that the byte names (R172). -/
theorem State.writeRegister_cmd (s : State) (code : Byte) :
    s.writeRegister 0x0A#6 code = s.cmdWrite code (bodyOfCode code) := rfl

section overrun
variable {s : State} (takes : s.takesWrite 0x0A#6)
include takes

/-- A CMD write that is discarded: overrun is set, and the host's frame goes on (R177). -/
theorem State.hostWrite_overrun {act : State → State}
    (discards : act s = { s with mailbox := { s.mailbox with overrun := true } }) :
    s.hostWrite 0x0A#6 act
      = { s with mailbox := { s.mailbox with overrun := true }, host := s.host.advance } := by
  rw [State.hostWrite_takes takes, discards]

/-- While EXECUTING every CMD write is discarded (R177). -/
theorem State.hostCommand_executing (executing : s.mailbox.executing = true) (code : Byte) (body : Body) :
    s.hostCommand code body
      = { s with mailbox := { s.mailbox with overrun := true }, host := s.host.advance } :=
  State.hostWrite_overrun takes (State.cmdWrite_executing executing code body)

end overrun

/-- Settles O23: a code that is not in the table is answered by R179's body; while EXECUTING each CMD write is discarded;
and in an IDLE mailbox the count of frames decides. -/
theorem mailboxAnswersAlone : Obligations.MailboxAnswersAlone := by
  intro s code
  refine ⟨fun takes unnamed => ?_, fun takes executing => ?_, fun takes idle => ?_⟩
  · have names : ¬ namesCommand code = true := (namesCommand_iff code).not.mpr unnamed
    exact congrArg _ ((if_neg names).trans
      (State.hostCommand_answers takes code badCommandBody (Reply.plain .badCommand) rfl))
  · have command (n : Byte) (body : Body) := congrArg (Host.Outcome.next (φ := Fault) (ρ := Refusal))
      (State.hostCommand_executing takes executing n body)
    have discarded : s.mailbox.executing || s.mailbox.foldedEnd != 0 := by rw [executing, Bool.true_or]
    simp only [List.forall_mem_cons]
    refine ⟨?_, command _ _, command _ _, command _ _, command _ _, command _ _, command _ _, command _ _, command _ _,
      command _ _, command _ _, command _ _, ?_, nofun⟩
    · exact congrArg _ ((if_pos discarded).trans (State.hostWrite_overrun takes rfl))
    · exact congrArg _ (State.hostWrite_overrun takes (act := fun t => t.writeRegister 0x0A#6 code)
        ((s.writeRegister_cmd code).trans (State.cmdWrite_executing executing code _)))
  · have discarded : (s.mailbox.executing || s.mailbox.foldedEnd != 0) = true ↔ s.mailbox.foldedEnd ≠ 0 := by
      rw [idle, Bool.false_or, bne_iff_ne]
    exact congrArg _ (ite_congr (propext discarded) (fun _ => State.hostWrite_overrun takes rfl) fun _ => rfl)

/-! ### Registers -/

/-- P0 to P7 stand at 02h to 09h (11.2). -/
theorem paramIndex_of_toNat {a : RegAddr} {k : Fin 8} (at_ : a.toNat = k.val + 2) : paramIndex a = some k := by
  have near : a.toNat - 2 < 8 := by omega
  have past : 2 ≤ a.toNat := by omega
  rw [paramIndex, dif_pos near, if_pos past]
  exact congrArg _ (Fin.ext (by simp only; omega))

theorem paramIndex_elsewhere {a : RegAddr} (away : a.toNat < 2 ∨ 9 < a.toNat) : paramIndex a = none := by
  unfold paramIndex
  split
  · exact if_neg (by omega)
  · rfl

/-- A write to a parameter register is kept there (R175). -/
theorem State.writeRegister_param (s : State) {a : RegAddr} {k : Fin 8} (at_ : a.toNat = k.val + 2) (v : Byte) :
    s.writeRegister a v = s.setMailbox { s.mailbox with p := s.mailbox.p.set k v } := by
  rw [State.writeRegister, paramIndex_of_toNat at_]

/-- A write to a read-only or reserved address is ignored (R172). -/
theorem State.writeRegister_ignored (s : State) {a : RegAddr}
    (other : a.toNat ∉ [2, 3, 4, 5, 6, 7, 8, 9, 0x0A, 0x20, 0x21, 0x22, 0x2A, 0x30, 0x31]) (v : Byte) :
    s.writeRegister a v = s := by
  simp only [List.mem_cons, List.not_mem_nil, or_false, not_or] at other
  rw [State.writeRegister, paramIndex_elsewhere (by omega)]
  simp only [cmdAddr, ← BitVec.toNat_inj, BitVec.toNat_ofNat, Nat.reducePow, Nat.reduceMod, other, if_false]

section frame
variable {h : HostPort} {bits : Nat} {read autoInc : Bool} {a : RegAddr}

/-- In an open frame whose address byte is complete, the byte at its current address is written or read by the frame's
direction (R171, R172). -/
theorem HostPort.carries_of_frame (open_ : h.frame = some ⟨bits, some ⟨read, autoInc, a⟩⟩) : h.carries a = !read := by
  simp only [HostPort.carries, open_, beq_self_eq_true, Bool.and_true]

theorem HostPort.reads_of_frame (open_ : h.frame = some ⟨bits, some ⟨read, autoInc, a⟩⟩) : h.reads a = read := by
  simp only [HostPort.reads, open_, beq_self_eq_true, Bool.and_true]

/-- A byte of another address than the open frame's, or before its address byte is complete, is none of `a` (log 3). -/
theorem HostPort.elsewhere {f : HostFrame} (open_ : h.frame = some f) (other : ∀ fa ∈ f.address, fa.addr ≠ a) :
    h.carries a = false ∧ h.reads a = false := by
  simp only [HostPort.carries, HostPort.reads, open_]
  cases address : f.address with
  | none => exact ⟨rfl, rfl⟩
  | some fa =>
    have ne : (fa.addr == a) = false := beq_eq_false_iff_ne.mpr (other fa address)
    simp only [ne, Bool.and_false, and_self]

/-- The end of a data byte moves the frame and leaves HCS and HSDO (R173). -/
theorem HostPort.advance_of_frame (open_ : h.frame = some ⟨bits, some ⟨read, autoInc, a⟩⟩) :
    h.advance = { h with frame := some ⟨bits + 8, some ⟨read, autoInc, if autoInc then a + 1#6 else a⟩⟩ } := by
  rw [← h.advance_frame bits read autoInc a open_]
  rfl

end frame

/-- A data byte of a read frame drives the register at the address that the frame has reached (R171, R173). -/
theorem State.readByte_of_frame {s : State} {bits : Nat} {autoInc : Bool} {a : RegAddr}
    (open_ : s.host.frame = some ⟨bits, some ⟨true, autoInc, a⟩⟩) :
    s.readByte = { s with host :=
      { hcsLow := s.host.hcsLow
        frame := some ⟨bits + 8, some ⟨true, autoInc, if autoInc then a + 1#6 else a⟩⟩
        hsdo := some (s.readRegister (if autoInc then a + 1#6 else a)) } } := by
  rw [State.readByte, HostPort.advance_of_frame open_]
  rfl

theorem exec_registerWrite (a : RegAddr) (v : Byte) (s : State) :
    exec (.registerWrite a v) s = .next (s.hostWrite a fun t => t.writeRegister a v) := rfl

/-- Settles O24: the address decides what a write does, and the open frame whether the byte is a write, a read or
neither. -/
theorem registerWriteReachesItsRegister : Obligations.RegisterWriteReachesItsRegister := by
  intro s a v
  refine ⟨fun k takes at_ => ?_, fun takes other => ?_, fun bits autoInc up open_ => ?_, fun f open_ other => ?_⟩ <;>
    rw [exec_registerWrite]
  · rw [State.hostWrite_takes takes, s.writeRegister_param at_]
    rfl
  · rw [State.hostWrite_takes takes, s.writeRegister_ignored other]
  · rw [State.hostWrite_reads up (HostPort.carries_of_frame open_) (HostPort.reads_of_frame open_),
      State.readByte_of_frame open_]
  · obtain ⟨unwritten, unread⟩ := HostPort.elsewhere open_ other
    rw [State.hostWrite_elsewhere unwritten unread]

/-! ### Host frames -/

/-- HCS falls with RESETn high: a frame begins, and STAT is driven (R170). -/
theorem State.fallHcs_up {s : State} (up : s.resetnLow = false) (high : s.host.hcsLow = false) :
    s.fallHcs = { s with host :=
      { hcsLow := true, frame := some { bits := 0, address := none }, hsdo := some s.stat } } := by
  rw [State.fallHcs, if_neg (Bool.eq_false_iff.mp high), if_neg (Bool.eq_false_iff.mp up)]
  rfl

/-- The fields of an address byte, read as numbers (R170). -/
theorem frameAddressOf_eq {b : Byte} {a : RegAddr} (addr : a.toNat = b.toNat % 64) :
    frameAddressOf b = { read := decide (128 ≤ b.toNat), autoInc := decide (64 ≤ b.toNat % 128), addr := a } := by
  have top : b.getLsbD 7 = decide (128 ≤ b.toNat) :=
    (BitVec.msb_eq_getLsbD_last b).symm.trans (BitVec.msb_eq_decide b)
  have next : b.getLsbD 6 = decide (64 ≤ b.toNat % 128) := by
    rw [BitVec.getLsbD, Nat.testBit_eq_decide_div_mod_eq, decide_eq_decide]
    omega
  rw [frameAddressOf, top, next, setWidth_eq_of_toNat addr]

/-- The address byte of a frame (R170 to R172). -/
theorem State.takeAddress_first {s : State} {bits : Nat} (open_ : s.host.frame = some ⟨bits, none⟩) (b : Byte) :
    s.takeAddress b = { s with host :=
      { hcsLow := s.host.hcsLow
        frame := some { bits := bits + 8, address := some (frameAddressOf b) }
        hsdo := some (if (frameAddressOf b).read then s.readRegister (frameAddressOf b).addr else 0#8) } } := by
  simp only [State.takeAddress, open_]
  rfl

theorem exec_addressByte {s : State} (up : s.resetnLow = false) (b : Byte) :
    exec (.addressByte b) s = .next (s.takeAddress b) := congrArg _ (State.whenRunning_up up _)

/-- The next address in a frame: one more, from 3Fh to 00h, with auto-increment, and the same without (R173). -/
theorem nextAddr_eq {a b : RegAddr} {autoInc : Bool}
    (next : b.toNat = if autoInc then (a.toNat + 1) % 64 else a.toNat) : (if autoInc then a + 1#6 else a) = b := by
  refine BitVec.eq_of_toNat_eq ?_
  rw [next]
  cases autoInc
  · rfl
  · exact BitVec.toNat_add a 1#6

/-- Settles O49: HCS begins and ends a frame, its first byte is the address byte, and a data byte moves the address while
the register's owner leaves the host port alone. -/
theorem hostFrames : Obligations.HostFrames := by
  intro s byte value a b
  refine ⟨fun up high => congrArg _ (State.fallHcs_up up high), fun bits up open_ addr => ?_,
    fun bits autoInc up open_ next => ?_, rfl⟩
  · rw [exec_addressByte up, State.takeAddress_first open_, frameAddressOf_eq addr]
    simp only [decide_eq_true_eq]
  · have takes : s.takesWrite a := ⟨up, HostPort.carries_of_frame open_⟩
    obtain ⟨-, host⟩ := State.front_eq_iff.mp (State.writeRegister_front (s := s) a value)
    refine ⟨_, (exec_registerWrite a value s).trans (congrArg _ (State.hostWrite_takes takes _)), ?_⟩
    simp only [host]
    rw [HostPort.advance_of_frame open_, nextAddr_eq next]

end Sys2Proof.Machine
